-- ==== Sys2Proof/Word.lean ====
section
/-! DEFINITION. The word types of Nderam (R6, R32): bytes, register words, 64-byte lines and the 704-bit flit. -/

namespace Sys2Proof

/-- One byte. -/
abbrev Byte := BitVec 8

/-- One register of register space (R7): 32 bits. -/
abbrev Word := BitVec 32

/-- The 64 payload bytes of a line: byte i lies in bits [8i+7:8i] (R32). -/
abbrev Line := BitVec 512

/-- Byte enables of a line: bit i enables payload byte i (R35). -/
abbrev BEn := BitVec 64

/-- A flit as sampled on Xn_IN_FLIT: header bits [703:512] and payload bits [511:0] (R32). -/
structure Flit where
  /-- Header bit h is flit bit 512 + h. -/
  hdr : BitVec 192
  /-- The 64 payload bytes. -/
  pay : Line
  deriving DecidableEq, Repr

/-- A frame of the span link layer: the flit in [703:0], the link header in [767:704], and whether the CRC-32 in
[799:768] checks (R301). -/
structure Frame where
  /-- The flit in bits [703:0]. -/
  flit : Flit
  /-- The link header, bits [767:704]. -/
  link : BitVec 64
  /-- Bits [799:768]. -/
  crc : BitVec 32
  deriving DecidableEq, Repr

end Sys2Proof
end

