-- ==== Sys2Proof/Syntax.lean ====
section
/-! DEFINITION. The commands of Nderam: one constructor per row of the opcode table, and the operand types they carry. -/

namespace Sys2Proof

/-- A data port, whose reset terminal and credit terminals a command names (R31, R300). -/
inductive PortId where
  /-- Caching port Cp. -/
  | c (p : Fin 16)
  /-- Direct port Dd. -/
  | d (p : Fin 8)
  /-- Back-end port Bp. -/
  | b (p : Fin 16)
  /-- Span port Sn. -/
  | s (p : Fin 4)
  deriving DecidableEq, Repr

/-- A master of register space with the attributes its access presents (R345, R371). -/
inductive Master where
  /-- The M-port, with its PRIV and SECURE terminals. -/
  | host (priv sec : Bool)
  /-- Direct port d through a REG access, with the flit's PRIV and SECURE. -/
  | direct (d : Fin 8) (priv sec : Bool)
  /-- CP, which presents both attributes. -/
  | cp
  /-- HP, which presents both attributes. -/
  | hp
  /-- TP, which presents both attributes. -/
  | tp
  /-- LP, which presents neither. -/
  | lp
  deriving DecidableEq, Repr

/-- A request inside the core: the endpoint (R326) whose ingress sent it and its internal tag there (R337). -/
structure Ref where
  /-- Endpoint ID of the ingress. -/
  src : Nat
  /-- Internal tag. -/
  tag : Nat
  deriving DecidableEq, Repr

/-- A completion as it arrives at its ingress (R337, R400). -/
structure Ejected extends Ref where
  /-- Its data fails the payload check there, and again after the resend. -/
  refails : Bool := false
  deriving DecidableEq, Repr

/-- Where a REQ-class flit is taken: sampled at a C- or D-port, or delivered to a span gateway (R59, R298). -/
inductive ReqSrc where
  /-- Sampled on a C-port. -/
  | cport (p : Fin 16) (f : Flit)
  /-- Sampled on a D-port. -/
  | dport (d : Fin 8) (f : Flit)
  /-- The oldest REQ message delivered to span gateway k. -/
  | gw (k : Fin 4)
  deriving DecidableEq, Repr

/-- Where an answer comes from: a C-port flit, or the oldest such message delivered to a span gateway. -/
inductive RspSrc where
  /-- Sampled on a C-port. -/
  | cport (p : Fin 16) (f : Flit)
  /-- The oldest answer of that opcode delivered to span gateway k. -/
  | gw (k : Fin 4)
  deriving DecidableEq, Repr

/-- Where a write-back comes from: a C-port flit, a span gateway, or one that already waits inside the core for a
write-back entry (R77, R337). -/
inductive WbSrc where
  /-- Sampled on a C-port. -/
  | cport (p : Fin 16) (f : Flit)
  /-- The oldest WB message delivered to span gateway k. -/
  | gw (k : Fin 4)
  /-- Already accepted and moving in the core. -/
  | moving (r : Ref)
  deriving DecidableEq, Repr

/-- What the partner's checks find of a mirror write (R96, R400). -/
inductive MirrorFault where
  /-- Nothing. -/
  | good
  /-- Its data fails the payload parity check twice. -/
  | refails
  /-- The location that it was written to fails its write check. -/
  | badWay
  deriving DecidableEq, Repr

/-- A mirror write as it arrives at the partner: the home's tracker number, and what the checks find. -/
structure MirrorIn where
  /-- Tracker number of the home. -/
  trk : Nat
  /-- What the partner's checks find. -/
  fault : MirrorFault := .good
  deriving DecidableEq, Repr

/-- The emergency requests of a bank (R281). -/
structure Urgency where
  /-- A requester with an emergency access. -/
  who : Option (Fin 6) := none
  /-- An access boundary inside a burst, where only an emergency may come between. -/
  mid : Bool := false
  deriving DecidableEq, Repr

/-- A link that is lost (R303). -/
structure LinkLoss where
  /-- The S-port. -/
  n : Fin 4
  /-- It is lost for want of good frames; else Sn_LINK_UP has fallen. -/
  silent : Bool := false
  deriving DecidableEq, Repr

/-- What LP finds in Saggar's store as VDDS comes up (R444, R445). -/
structure StoreFound where
  /-- The version of the LP image that is loaded. -/
  version : Word := 0
  /-- The records of which neither copy is valid: 0 to 84 the entries, 85 RSEQ, 86 to 101 the key slots, 102 the seal. -/
  noCopy : List (Fin 103) := []
  deriving DecidableEq, Repr

/-- The commands, one per row of spec/opcode_table.json. -/
inductive Instr where
  /-- REQ_INGRESS (R59): A REQ-class flit is taken whole at a C-, D- or S-port ingress. The port checks header parity, the tag map and the outstanding limit, and routes the request toward its home or to the D-port's own handling. -/
  | reqIngress (x : ReqSrc)
  /-- STORE_ENTERS_BUFFER (R211): A STORE that passes the checks of R210 enters a free posted-store buffer entry and completes to the requester with OK. -/
  | storeEntersBuffer (d : Fin 8)
  /-- STORE_DRAIN (R213): The posted-store buffer issues its next STORE to the home, in PIPELINED or SERIAL mode. -/
  | storeDrain (d : Fin 8)
  /-- STORE_CMP (R214): The home's CMP for a drained STORE reaches the buffer. The entry is freed, the ACK is generated and any failure is recorded. -/
  | storeCmp (d : Fin 8) (tag : Nat)
  /-- FENCE (R225): A FENCE is issued once the older accesses are done. It completes with OK, or with the epoch's first failure. -/
  | fence (d : Fin 8)
  /-- FENCE_P (R229): A FENCE_P is issued once the older accesses are done. It issues a PERSIST for every line on the durability list. -/
  | fenceP (d : Fin 8)
  /-- REG_ACCESS (R218): A D-port LOAD or STORE with REG = 1 is issued to register space once the older accesses are done. -/
  | regAccess (d : Fin 8)
  /-- RD_SHARED (R102): A RD_SHARED passes lookup at its home and is served from the cache or by a forwarding snoop. -/
  | rdShared (r : Ref)
  /-- RD_UNIQUE (R102): A RD_UNIQUE passes lookup, invalidates or forwards from other holders, and grants E or M. -/
  | rdUnique (r : Ref)
  /-- RD_ONCE (R102): A RD_ONCE passes lookup and returns the current value with GST = I. -/
  | rdOnce (r : Ref)
  /-- CLEAN_UNIQUE (R104): A CLEAN_UNIQUE passes lookup and upgrades a listed requester, or is served as RD_UNIQUE. -/
  | cleanUnique (r : Ref)
  /-- WR_FULL (R102): A WR_FULL invalidates every copy and writes the line by the two-copy sequence. -/
  | wrFull (r : Ref)
  /-- WR_PARTIAL (R102): A WR_PARTIAL merges its enabled bytes into the current line and writes it by the two-copy sequence. -/
  | wrPartial (r : Ref)
  /-- PERSIST (R107): A PERSIST makes the value that the home holds for the line durable, bundling it if needed. -/
  | persist (r : Ref)
  /-- LOAD (R108): A D-port LOAD passes lookup at its home and returns the selected bytes. -/
  | load (r : Ref)
  /-- DRAINED_STORE (R108): A drained STORE passes lookup, invalidates holders and merges its bytes by the two-copy sequence. -/
  | drainedStore (r : Ref)
  /-- LOAD_RES (R221): A LOAD_RES holds both lines of its granule, records the reservation in the monitor and returns data. -/
  | loadRes (r : Ref)
  /-- STORE_COND (R110): A STORE_COND is decided at lookup by the monitor. It stores with RES = 1, or fails with RES = 0. -/
  | storeCond (r : Ref)
  /-- WB_DIRTY (R105): A WB_DIRTY is taken into a write-back entry. It is written by the two-copy sequence, attached to a busy transaction or deferred. -/
  | wbDirty (x : WbSrc)
  /-- EVICT_CLEAN (R106): An EVICT_CLEAN removes its sender from the filter and completes with CMP. -/
  | evictClean (x : WbSrc)
  /-- TRILL_PREFETCH (R112): A Trill prefetch reaches its home. It is dropped, or it fills the line into the cache. -/
  | trillPrefetch (r : Ref)
  /-- PUG_ISSUE (R199): A Pug job issues its next line action once the slice has free entries, or after 2^16 TB ticks without issue. -/
  | pugIssue (j : Fin 4)
  /-- PUG_LINE_ACTION (R197): A Pug line action passes lookup and performs its job type's action on the line. -/
  | pugLineAction (r : Ref)
  /-- BACK_INVALIDATION (R114): A victim filter entry is back-invalidated with SNP_INVAL to its holders, once a victim can be chosen. -/
  | backInvalidation (slice : Fin 32) (trk : Nat)
  /-- SWEEP_LINE (R156): The set sweep issues its next line's broadcast SNP_INVAL, every 2^SWEEP_RATE TB ticks. -/
  | sweepLine (slice : Fin 32)
  /-- BOURDON_SLOT_GRANT (R131): The Bourdon arbiter grants a line slot to a waiting request for a covered line. -/
  | bourdonSlotGrant (slice : Fin 32) (trk : Nat)
  /-- SNP_RESP (R89): A snoop answer without data reaches its tracker. A crossing-marked answer waits for the write-back. -/
  | snpResp (x : RspSrc)
  /-- SNP_RESP_DATA (R91): A snoop answer with data reaches its tracker, and dirty data is written by the two-copy sequence. -/
  | snpRespData (x : RspSrc)
  /-- FWD_DONE (R89): A forwarding owner's FWD_DONE reaches the home tracker. -/
  | fwdDone (x : RspSrc)
  /-- ACK (R81): A requester's ACK reaches the tracker that awaits it. -/
  | ack (x : RspSrc)
  /-- FORWARDED_CMP_DATA (R52): An owner's forwarded CMP_DATA is taken at its port and routed to the requester named by FRID and FTAG. -/
  | forwardedCmpData (x : RspSrc)
  /-- COMPLETION_EGRESS (R337): A completion reaches its port or gateway. It is matched by internal tag and driven with the requester's RID and TAG, or is handled as late. -/
  | completionEgress (r : Ejected)
  /-- OUTBOUND_CREDIT (R63): The far side returns one outbound credit of a class on the port's credit terminals. -/
  | outboundCredit (p : PortId) (cls : Fin 6)
  /-- MIRROR_WRITE (R96): A mirror write reaches the partner slice, which writes a mirror location and acknowledges. -/
  | mirrorWrite (slice : Fin 32) (trk : MirrorIn)
  /-- MIRROR_ACK (R95): A mirror acknowledgment reaches the home, which marks the line dirty and mirrored. -/
  | mirrorAck (slice : Fin 32) (trk : Nat)
  /-- FILTER_COPY_WRITE (R151): A filter-copy write reaches the partner, which writes the entry and acknowledges. -/
  | filterCopyWrite (slice : Fin 32) (trk : Nat)
  /-- FILTER_COPY_ACK (R87): A filter-copy acknowledgment reaches the home. -/
  | filterCopyAck (slice : Fin 32) (trk : Nat)
  /-- MIRROR_RELEASE (R97): A mirror release reaches the partner, which frees the mirror way. -/
  | mirrorRelease (slice : Fin 32) (line : Nat)
  /-- CLOSE_NOTICE (R151): A close notice reaches the partner, which frees the tracker's change record. -/
  | closeNotice (slice : Fin 32) (trk : Nat)
  /-- SET_READ_REQUEST (R153): A set-read request reaches the partner, which reads and checks all 16 ways and replies. -/
  | setReadRequest (slice : Fin 32) (set : Fin 4096)
  /-- SET_READ_REPLY (R153): The set-read reply reaches the home, which rewrites failed ways and releases the set. -/
  | setReadReply (slice : Fin 32) (set : Fin 4096)
  /-- HOLD_NOTICE (R412): A home's hold notice reaches an ingress, which releases the reissue record of the data. -/
  | holdNotice (r : Ref)
  /-- ABANDON_NOTICE (R244): An abandon notice for a drained STORE reaches the posted-store buffer, so that the flush drain issues it again. -/
  | abandonNotice (d : Fin 8) (tag : Nat)
  /-- BACKGROUND_BUNDLING (R181): The home places dirty lines into a background bundle at the rate CP sets. -/
  | backgroundBundling (slice : Fin 32) (lines : List Nat)
  /-- TRANSFER_GRANT (R284): At a message boundary, the B-port transfer arbiter grants the port to one requester. -/
  | transferGrant (b : Fin 16) (flits : Nat)
  /-- CREDIT_WINDOW (R284): A 2^WIN TB-tick window expires, and every arbiter counter becomes min(counter, 0) + WEIGHT. -/
  | creditWindow (b : Fin 16)
  /-- BANK_ARBITRATION (R281): A slice bank arbiter grants its bank to a requester, or to an emergency requester at an access boundary. -/
  | bankArbitration (slice : Fin 33) (bank : Fin 8) (waiting : List (Fin 6)) (urgent : Urgency)
  /-- BE_DATA (R264): A BE_DATA answers a BE_READ. The home fills the line and completes the waiting read. -/
  | beData (b : Fin 16) (f : Flit)
  /-- BE_DURABLE (R266): A BE_DURABLE makes the bundle's lines clean, releases their mirrors and completes the writes waiting on it. -/
  | beDurable (b : Fin 16) (f : Flit)
  /-- EXHAUSTED (R278): A BE_STATUS EXHAUSTED pins the bundle's lines, sets write-refused on their regions and completes the waiters with ERR_EXHAUSTED. -/
  | exhausted (b : Fin 16) (f : Flit)
  /-- SCANNING (R272): A BE_STATUS SCANNING is taken. From a back-end in service it aborts bundles and holds reads until READY. -/
  | scanning (b : Fin 16) (f : Flit)
  /-- READY (R258): A BE_STATUS READY is taken. Held reads are reissued, and the start may proceed to READY. -/
  | ready (b : Fin 16) (f : Flit)
  /-- BOUND (R270): A BE_STATUS BOUND declares the back-end's read-latency bound. -/
  | bound (b : Fin 16) (f : Flit)
  /-- BE_HEALTH (R274): A BE_HEALTH report is checked and placed in BP_HLTH, then passed to CP and LP. -/
  | beHealth (b : Fin 16) (f : Flit)
  /-- INGRESS_TIMEOUT (R337): A request's ingress timeout expires, and the port sends a synthesised error completion. -/
  | ingressTimeout (r : Ref)
  /-- SNOOP_TIMEOUT (R336): A snoop to a local agent times out. The agent is removed and the transaction continues as if it had answered GST = I. -/
  | snoopTimeout (slice : Fin 32) (trk : Nat) (agent : Fin 64)
  /-- BE_READ_TIMEOUT (R271): A BE_READ's timeout expires and its read completes with ERR_TIMEOUT. -/
  | beReadTimeout (b : Fin 16) (tag : Nat)
  /-- BUNDLE_TIMEOUT (R271): A bundle attempt unanswered at its timeout is treated as aborted, and its lines are bundled again. -/
  | bundleTimeout (b : Fin 16) (tag : Nat)
  /-- RESERVATION_EXPIRY (R223): A monitor entry's expiry time passes and its reservation is cancelled. -/
  | reservationExpiry (slice : Fin 32) (e : Fin 12)
  /-- PORT_RESET (R72): A port's reset terminal is asserted and the port closes, beginning the resolution of its transactions. -/
  | portReset (p : PortId)
  /-- PORT_PURGE_COMPLETE (R72): The snoop-filter purge of a reset C-port ends, and poisoned lines are counted. -/
  | portPurgeComplete (p : Fin 16)
  /-- PORT_RESET_RELEASE (R72): A port's reset is deasserted, and the port reopens once its resolution is complete. -/
  | portResetRelease (p : PortId)
  /-- REMOTE_SNOOP (R166): A snoop from a remote home reaches the proxy. It is answered at once or passed to the listed local agents. -/
  | remoteSnoop (k : Fin 4)
  /-- GATEWAY_REQUEST (R297): A request at the head of a gateway's line queue is conditioned against the proxy entry and sent to the remote home. -/
  | gatewayRequest (k : Fin 4)
  /-- REMOTE_COMPLETION (R298): A remote home's completion reaches the gateway. The gateway maps it back, updates the proxy and delivers it. -/
  | remoteCompletion (k : Fin 4)
  /-- FLIT (R302): A FLIT frame is received. It is accepted in sequence and forwarded or delivered, or a NAK is sent. -/
  | flit (n : Fin 4) (fr : Frame)
  /-- NAK (R302): A NAK frame is received and the sender replays from FACK + 1. -/
  | nak (n : Fin 4) (fr : Frame)
  /-- CREDIT (R301): A CREDIT frame returns link credits per class. -/
  | credit (n : Fin 4) (fr : Frame)
  /-- IDLE (R301): An IDLE frame is received, carrying only link-header acknowledgments and credits. -/
  | idle (n : Fin 4) (fr : Frame)
  /-- TRAIN (R304): A TRAIN frame is received and answered, completing the link exchange. -/
  | train (n : Fin 4) (fr : Frame)
  /-- TRAIN_ANNOUNCE (R304): Every 100 TB ticks until a TRAIN arrives, a side sends TRAIN with STEP 0. -/
  | trainAnnounce (n : Fin 4)
  /-- LINK_UP (R304): Sn_LINK_UP rises and the TRAIN exchange begins. -/
  | linkUp (n : Fin 4)
  /-- LINK_LOST (R303): A link is declared lost by LINK_UP falling, replay exhaustion or 1,000 TB ticks without a good frame. -/
  | linkLost (n : LinkLoss)
  /-- SPAN_ACK_DUE (R306): A receiving gateway returns SPAN_ACK after 16 messages or 50 TB ticks from delivery. -/
  | spanAckDue (k : Fin 4) (src : Fin 16)
  /-- REISSUE (R307): No SPAN_ACK arrives within REISSUE_WAIT, so unacknowledged messages are resent over the next route. -/
  | reissue (k : Fin 4) (dst : Fin 16)
  /-- HELLO (R293): A HELLO packet is received and checked for identity and role conflicts. -/
  | hello (n : Fin 4)
  /-- HELLO_PERIOD (R312): Every 2^16 TB ticks, HELLO is sent on each link. -/
  | helloPeriod
  /-- ROUTE (R305): A ROUTE packet is received and HP updates its route table. -/
  | route (n : Fin 4)
  /-- ROUTE_PERIOD (R312): Every 2^14 TB ticks, ROUTE is sent to every neighbour. -/
  | routePeriod
  /-- SPAN_ACK (R306): A SPAN_ACK is received and frees the covered messages from the end-to-end buffer. -/
  | spanAck (n : Fin 4)
  /-- HEARTBEAT (R314): A HEARTBEAT is received. The Drone aligns its domain time and applies the maps. -/
  | heartbeat
  /-- HEARTBEAT_PERIOD (R314): Every 2^14 TB ticks, the Chanter sends HEARTBEAT with the domain time. -/
  | heartbeatPeriod
  /-- ECHO (R312): An ECHO request or reply is received. The Chanter answers it, or the Drone computes delay and offset. -/
  | echo
  /-- CMD (R313): A relayed CMD is received from the current Chanter and executed under the local rules. -/
  | cmd
  /-- CMD_RSP (R313): A CMD_RSP reaches the Chanter, which records the target's status. -/
  | cmdRsp
  /-- ARRIVE (R315): An ARRIVE reaches the Chanter, which sends RELEASE when every member has arrived. -/
  | arrive
  /-- RELEASE (R315): A RELEASE is received and the waiting barrier commands complete with OK. -/
  | release
  /-- FUNNEL (R316): A FUNNEL packet reaches the Chanter, which writes its records into its own Flue. -/
  | funnel
  /-- LEDGER (R449): A LEDGER request or readout is received between LPs. -/
  | ledger
  /-- LEDGER_CYCLE (R449): Every 2^32 TB ticks, the Chanter's LP sends LEDGER requests with a fresh nonce. -/
  | ledgerCycle
  /-- MEMBER (R312): A MEMBER map with a newer version is received and applied. -/
  | member
  /-- CHANTER_TAKEOVER (R317): A Drone that hears no HEARTBEAT for 4 periods plus its wait takes the Chanter role. -/
  | chanterTakeover
  /-- INSTANCE_LOST (R309): An instance without a route for DEAD_WAIT is declared lost, and its sharers and proxies are purged. -/
  | instanceLost (inst : Fin 16)
  /-- PWR_OK_ASSERT (R482): PWR_OK is taken. The tick count starts and the cold start begins in INIT. -/
  | pwrOkAssert (inst : Fin 16) (chanterN : Bool)
  /-- PWR_OK_DEASSERT (R384): PWR_OK is deasserted and Nderam goes to OFF. -/
  | pwrOkDeassert
  /-- WARM_RESET (R484): RESET_N is taken. Buffers drain and transactions end, with state retained. -/
  | warmReset
  /-- WARM_RESET_EFFECT (R234): Every buffered STORE has been freed, so the warm reset takes effect and NDR_STATE becomes INIT. -/
  | warmResetEffect
  /-- CALIBRATION_DONE (R483): Calibration of matched delays and Cone thresholds ends, with any unit that cannot be calibrated failed. -/
  | calibrationDone (slices : List (Fin 33)) (links : List (Fin 112)) (ports : List PortId)
  /-- IMAGE_LOADED (R472): The last byte of a processor image arrives and the image is authenticated, falling back to the other slot or halting. -/
  | imageLoaded (proc : Fin 3) (ok : Bool) (version : Word)
  /-- OPEN_RECORD_WRITTEN (R256): An OPEN record write completes. The generation opens and READY is entered, or the pending region commit takes effect. -/
  | openRecordWritten (ok : Bool)
  /-- RECORD_RETRY (R256): A failed persistence record write is repeated. -/
  | recordRetry
  /-- PWRFAIL (R242): PWRFAIL_N is taken, and Nderam enters FLUSH, or HALT when no generation is open. -/
  | pwrfail
  /-- FLUSH_LIMIT (R243): FLUSH_LIMIT expires and the flush proceeds to write the CLOSE record. -/
  | flushLimit
  /-- CLOSE_RECORD (R243): Every flush line is durable or refused, so the CLOSE record is written. -/
  | closeRecord
  /-- FLUSH_END (R243): The CLOSE record write ends, FLUSHED is asserted and NDR_STATE becomes HALT. -/
  | flushEnd (ok : Bool)
  /-- SPAN_WAIT (R245): SPAN_WAIT expires in FLUSH and remote posted stores not delivered are dropped. -/
  | spanWait
  /-- VDDS_WARN (R478): VDDS_WARN_N is taken and LP starts no further N-port program or erase. -/
  | vddsWarn
  /-- VDDS_POWER_UP (R444): VDDS comes up. Saggar resets, adds UNDER, loads LP and writes the seal record UNSEALED. -/
  | vddsPowerUp (lpOk : Bool) (version : StoreFound)
  /-- TBCLK_LOST (R467): No TB_CLK edge arrives for 1 µs. The internal oscillator is substituted and a power failure is taken. -/
  | tbclkLost
  /-- SERVICE_N_ASSERT (R454): SERVICE_N is taken. Key slots are erased, debug is relocked and PRESENT is set. -/
  | serviceNAssert
  /-- SERVICE_N_DEASSERT (R387): SERVICE_N is deasserted. PRESENT falls, running presence commands end and SERVICE is left. -/
  | serviceNDeassert
  /-- SEAL_SAMPLE (R450): The seal monitor drives the next LFSR bit and samples SEAL_LOOP_B. -/
  | sealSample (back : Bool)
  /-- TEST_MODE_ENTRY (R481): A wrapper test mode is entered under reset, and keys, debug and arrays are erased. -/
  | testModeEntry
  /-- PROC_FAULT (R18): CP, HP or TP faults, and its memory is cleared and its image reloaded. -/
  | procFault (proc : Fin 3)
  /-- PROC_RESTART (R18): A faulted processor's image is authenticated and it restarts, or it stays stopped. -/
  | procRestart (proc : Fin 3) (ok : Bool) (version : Word)
  /-- LP_FAULT (R453): LP faults and restarts from its active image inside Saggar. -/
  | lpFault
  /-- SLICE_FAILED (R411): A physical slice is declared failed and its partner takes over its logical slice. -/
  | sliceFailed (phys : Fin 33) (cause : Fin 5)
  /-- MIRROR_ACK_TIMEOUT (R335): A mirror, filter-copy or set-read acknowledgment times out and the other slice is declared failed. -/
  | mirrorAckTimeout (slice : Fin 32) (trk : Nat)
  /-- LINK_FAILED (R332): A fabric link fails by repeated resends or a stalled handshake, and routes are changed around it. -/
  | linkFailed (link : Fin 112)
  /-- TABLE_CHANGE (R339): A routing table change runs under local quiesce: hold, drain markers, write, release. -/
  | tableChange
  /-- TABLE_CHANGE_TIMEOUT (R341): Step 3 of a table change does not end within 64 TB ticks, so the stalled part is declared failed. -/
  | tableChangeTimeout (link : Fin 112)
  /-- FETTLER_SCRUB (R403): Fettler reads and checks its next location on its paced schedule. -/
  | fettlerScrub
  /-- BISQUE_BORROW (R405): Every 2^16 TB ticks, Bisque borrows one way of one bank and march-tests it. -/
  | bisqueBorrow
  /-- LINK_TEST_FLIT (R406): Bisque sends a test flit across a link direction in an idle slot. -/
  | linkTestFlit (link : Fin 112) (dir : Bool) (ok : Bool)
  /-- ROTATION (R407): The rotation period expires with a ready spare, and a live migration of one logical slice starts. -/
  | rotation
  /-- MIGRATION_COPY_DONE (R408): The copy to the spare ends and the cut-over window opens under the Bourdon. -/
  | migrationCopyDone
  /-- CUTOVER_CLOSE (R408): Every tracker of the slice at the old bearer is free, so the window closes and PHYS changes. -/
  | cutoverClose
  /-- SPARE_TEST_DONE (R408): The full test of a recovering spare ends, and the spare becomes ready or goes out of service. -/
  | spareTestDone (ok : Bool)
  /-- BUCKET_LEAK (R362): Every 2^LEAK TB ticks, each bucket level above 0 falls by 1. -/
  | bucketLeak
  /-- POLICY_EVALUATION (R397): Every 2^16 TB ticks, CP evaluates the policies within their bounds. -/
  | policyEvaluation
  /-- VOLTAGE_FLOOR (R420): A Cone's SPEED falls below SPEED_MIN × 65/64, so FLOOR and CODE rise by 4, repeated every 64 TB ticks. -/
  | voltageFloor
  /-- BANK_TAKE (R432): The producer's request is seen on M_CLK and the unfinished Flue bank is taken whole. -/
  | bankTake
  /-- FLUE_DATA (R429): A read of FLUE_DATA returns and removes the oldest unread word, or underruns. -/
  | flueData (m : Master)
  /-- METER_INCREMENT (R439): A meter increment reaches the Saggar inlet and is added to its accumulator. -/
  | meterIncrement (parityOk : Bool)
  /-- QUANTUM_TRANSFER (R442): LP moves a whole quantum from an accumulator into its spread counter, folding full pages. -/
  | quantumTransfer (meter : Fin 17) (q : Fin 5)
  /-- POWER_ON_SECOND (R440): Each second of TB ticks with PWR_OK asserted adds to the ON quantity. -/
  | powerOnSecond
  /-- COMMIT (R355): A write of COMMIT = 1 installs the region staging copy, after an OPEN record while a generation is open. -/
  | commit (m : Master) (r : Fin 16) (v : Word)
  /-- WREF_CLEAR (R279): A write of 0 to WREF clears write refusal and rebundles the region's pinned lines. -/
  | wrefClear (m : Master) (r : Fin 16) (v : Word)
  /-- WREF_SET (R355): A write of 1 to WREF refuses writes to the region without pinning. -/
  | wrefSet (m : Master) (r : Fin 16) (v : Word)
  /-- START (R200): A write of START = 1 starts a Pug job, or is refused. -/
  | start (m : Master) (j : Fin 4) (v : Word)
  /-- ABORT (R201): A write of ABORT = 1 stops a Pug job from issuing. -/
  | abort (m : Master) (j : Fin 4) (v : Word)
  /-- LC_DISABLE (R194): A write of LC_EN = 0 starts the implicit CLEAN_INVALIDATE of the line cache. -/
  | lcDisable (m : Master) (v : Word)
  /-- LC_ENABLE (R196): A write of LC_EN = 1 enables the line cache at once, or when the implicit job ends. -/
  | lcEnable (m : Master) (v : Word)
  /-- SNAP (R352): A write of SNAP = 1 captures every counter for snapshot reads. -/
  | snap (m : Master) (v : Word)
  /-- SNAP_RELEASE (R352): A write of RELEASE = 1 ends the counter snapshot. -/
  | snapRelease (m : Master) (v : Word)
  /-- PTR_HI_WRITE (R366): A write of a mailbox's PTR_HI installs the pointer and sets FULL, or sets OVR. -/
  | ptrHiWrite (m : Master) (mb : Fin 16) (v : Word)
  /-- PTR_HI_TAKE (R367): The receiver's read of PTR_HI clears FULL. -/
  | ptrHiTake (m : Master) (mb : Fin 16)
  /-- LIG (R370): A read of LIG acquires a free lock, or returns the owner. -/
  | lig (m : Master) (k : Fin 32)
  /-- LIG_RELEASE (R371): A write of RELEASE = 1 by the owner frees a Ligature lock. -/
  | ligRelease (m : Master) (k : Fin 32)
  /-- FORCE (R372): A privileged write of FORCE = 1 force-releases a held lock and marks it BROKEN. -/
  | force (m : Master) (k : Fin 32)
  /-- BELL_SET (R373): A write of BELL_SET rings the SOFT bits of a host bank. -/
  | bellSet (m : Master) (bank : Fin 4) (v : Word)
  /-- BELL_CLR (R376): A write of BELL_CLR clears Bell bits, with rings in the same cycle winning into BELL_AGAIN. -/
  | bellClr (m : Master) (bank : Fin 4) (v : Word)
  /-- CONE_SEL (R358): A write of CONE_SEL latches the selected monitor's three readings. -/
  | coneSel (m : Master) (v : Word)
  /-- ARB_CLR (R290): A write of ARB_CLR clears the selected arbiter requester's counters. -/
  | arbClr (m : Master) (v : Word)
  /-- FAB_CLR (R343): A write of FAB_CLR clears the selected initiator's buckets and flit counters. -/
  | fabClr (m : Master) (v : Word)
  /-- ROTATE (R418): A write of ROTATE = 1 starts one rotation now if the spare is ready. -/
  | rotate (m : Master) (v : Word)
  /-- FLIP_MASK (R364): A write that arms FLIP_MASK prepares a parity flip in the next write to an array of the chosen category. -/
  | flipMask (m : Master) (v : Word)
  /-- BP_WIN (R263): A write of BP_WIN takes effect only while the B-port's reset is asserted. -/
  | bpWin (m : Master) (b : Fin 16) (v : Word)
  /-- REGISTER_WRITE (R7): A write to a register without a row of its own acts by its access codes, including W1C clears, RW-P refusal and reserved bits. -/
  | registerWrite (m : Master) (off : BitVec 24) (v : Word) (be : BitVec 4)
  /-- NOP (R386): Command NOP ends with OK. -/
  | nop
  /-- GET_INFO (R388): Command GET_INFO returns version, UID, state, generation, domain and image versions. -/
  | getInfo
  /-- GET_POLICY (R388): Command GET_POLICY returns the bounds and current policy values. -/
  | getPolicy
  /-- QUIESCE (R389): Command QUIESCE stops REQ credits and waits for the trackers and buffers to empty. -/
  | quiesce
  /-- QUIESCE_COMPLETE (R389): Every general and internal tracker is free and every buffer empty, so QUIESCE ends and the state becomes QUIESCED. -/
  | quiesceComplete
  /-- RESUME (R389): Command RESUME reopens the ports and returns to READY or DEGRADED. -/
  | resume
  /-- ENTER_SERVICE (R389): Command ENTER_SERVICE moves QUIESCED to SERVICE. -/
  | enterService
  /-- LEAVE_SERVICE (R389): Command LEAVE_SERVICE moves SERVICE to QUIESCED. -/
  | leaveService
  /-- POWER_DOWN (R390): Command POWER_DOWN runs the flush without PWRFAIL_N and writes CLOSE with CAUSE = 2. -/
  | powerDown
  /-- SET_BOUNDS (R391): Command SET_BOUNDS sets the policy bounds. -/
  | setBounds
  /-- SET_WARE (R392): Command SET_WARE raises or lowers the number of Ware ways. -/
  | setWare
  /-- WARE_CONVERSION_DONE (R191): Every converted way is empty, so a raising SET_WARE ends. -/
  | wareConversionDone
  /-- SET_HEALTH (R393): Command SET_HEALTH sets the SPARE_LEFT thresholds per B-port. -/
  | setHealth
  /-- DOM_BARRIER (R394): Command DOM_BARRIER sends ARRIVE and waits for RELEASE. -/
  | domBarrier
  /-- DOM_JOIN (R394): Command DOM_JOIN sets the Chanter's join mask. -/
  | domJoin
  /-- DOM_LEAVE (R321): Command DOM_LEAVE starts the orderly leave of an instance. -/
  | domLeave
  /-- FW_UPDATE (R395): Command FW_UPDATE authenticates an image and writes it into the inactive slot. -/
  | fwUpdate
  /-- KEY_LOAD (R457): Command KEY_LOAD unwraps and installs a key, BYPASS or EMPTY in a slot. -/
  | keyLoad
  /-- DEBUG_UNLOCK (R458): Command DEBUG_UNLOCK verifies a token and unlocks a debug scope. -/
  | debugUnlock
  /-- DEBUG_LOCK (R396): Command DEBUG_LOCK relocks debug at once. -/
  | debugLock
  /-- SECURE_ERASE (R458): Command SECURE_ERASE empties key slots and may discard cached lines. -/
  | secureErase
  /-- SAG_RESEAL (R459): Command SAG_RESEAL verifies the authority and generates a new signing key. -/
  | sagReseal
  /-- SAG_READOUT (R446): Command SAG_READOUT returns a fresh signed readout or a collected one. -/
  | sagReadout
  /-- COMMAND_TIMEOUT (R377): A command's own timeout expires and it ends with TIMEOUT. -/
  | commandTimeout (op : BitVec 16)
  /-- TB_TICK (R487): On each rising TB_CLK edge the 64-bit tick count rises by 1 and every Cone reports its SPEED and TEMP for that tick. -/
  | tbTick (cones : List (Fin 41 × BitVec 16 × BitVec 16))
  /-- VDDS_LOSS (R451): VDDS leaves its range, destroying the signing key, the accumulator residues and all Saggar state. -/
  | vddsLoss
  /-- NO_CHANTER (R323): A Drone has received no HEARTBEAT for 4 periods and sets DOM_STAT.NO_CHANTER before its takeover wait ends. -/
  | noChanter
  /-- ECHO_REQUEST (R314): A Drone sends an ECHO request to the Chanter to measure path delay. -/
  | echoRequest
  /-- REGISTER_READ (R8): A register read that is refused (RW-P, or LP outside the SAG window) writes a Flue event, or one that hits a packet-RAM parity error sets M_ERR and logs. -/
  | registerRead (m : Master) (off : BitVec 24)
  /-- LEAVE_REPORT (R321): An instance's report that none of its messages to or from the leaving instance is unacknowledged reaches the Chanter, which sends the final MEMBER when all are in. -/
  | leaveReport (inst : Fin 16)
  /-- JTAG_INSTRUCTION (R480): A private JTAG instruction is loaded and acts only if debug scope bit 1 is unlocked, else acts as BYPASS and writes a Flue event. -/
  | jtagInstruction (ir : BitVec 8)
  /-- MARCH_TEST_DONE (R405): The March C− test over a borrowed way ends; passing locations return Invalid and failing ones become Disabled. -/
  | marchTestDone (failed : List Nat)
  /-- PRESENCE_ESTABLISHED (R454): Key-slot erasure and debug relock after SERVICE_N assertion finish, ERASING falls and PRESENT is set. -/
  | presenceEstablished
  /-- IMAGE_SLOT_WRITTEN (R395): The N-port write of an authenticated FW_UPDATE image into the inactive slot ends, the selector makes it active and the command ends. -/
  | imageSlotWritten
  /-- SECURE_ERASE_DONE (R458): The overwriting of the erased key records, and any discard of cached lines, ends and SECURE_ERASE ends. -/
  | secureEraseDone
  deriving DecidableEq, Repr

end Sys2Proof
end

