-- ==== Sys2Proof/Decode.lean ====
section
/-! DEFINITION. Commands as words. The opcode table gives its rows no bits: a command is an event at a terminal or inside the block,
and no word spells it. -/

namespace Sys2Proof

/-- The command that a word spells by the table's bits: none, since no row of the table gives bits (assumption 1). -/
def decodeTableWord (_nbits _w : Nat) : Option Instr := none

end Sys2Proof
end

