-- ==== Sys2Proof/Config.lean ====
section
/-! DEFINITION. What one instance of Nderam fixes for itself, and the values the spec leaves open. Every constant here has no
body: nothing in Lean can evaluate it, so a statement holds whatever it is. -/

namespace Sys2Proof.Config

/-- Serial number read from fuses (R354). -/
opaque uid : BitVec 64
/-- Whether the serial number's check bits agree (R354). -/
opaque uidCheck : Bool
/-- Word k of the P-384 key-agreement public key, fuse-derived (R457, R461). -/
opaque kaPub : Nat → Word
/-- Random debug nonce number n (R461): a free value drawn at each replacement. -/
opaque debugNonce : Nat → BitVec 256
/-- Random cycle nonce number n of the Chanter's LP (R449). -/
opaque cycleNonce : Nat → BitVec 256
/-- SPEED_TGT of Cone m after calibration (R419, R483). -/
opaque speedTgt : Nat → Nat
/-- SPEED_MIN of Cone m after calibration (R419, R483). -/
opaque speedMin : Nat → Nat
/-- Lowest SPEED of the fused range of Cone m (R422). -/
opaque speedLo : Nat → Nat
/-- Highest SPEED of the fused range of Cone m (R422). -/
opaque speedHi : Nat → Nat
/-- The manufacturer code of IDCODE, from fuses (R480). -/
opaque idManufacturer : BitVec 11
/-- CP's choice number n of the policy value p (R397): the spec leaves the choice to firmware. -/
opaque policyChoice : Nat → Nat → Nat
/-- Byte i of Ware line l where not every byte of the line has been written, access number n (R190). -/
opaque wareByte : Nat → Nat → Nat → Byte
/-- Whether Ware line l is poisoned where not every byte of it has been written, access number n (R190). -/
opaque warePoison : Nat → Nat → Bool
/-- XTS-AES-256 encryption of a line: key, tweak, plaintext (R275, IEEE 1619). -/
opaque xtsEncrypt : BitVec 512 → Nat → Line → Line
/-- XTS-AES-256 decryption of a line: key, tweak, ciphertext (R275, IEEE 1619). -/
opaque xtsDecrypt : BitVec 512 → Nat → Line → Line
/-- The 64-byte key that KEY_LOAD's parameter bytes unwrap to for a slot, or none where the integrity check fails (R457). -/
opaque unwrapKey : Nat → List Byte → Option (BitVec 512)
/-- The first 4 bytes of SHA-384 over "NDR-KCV" and the key (R458). -/
opaque keyCheck : BitVec 512 → Word
/-- Whether a DEBUG_UNLOCK token verifies for nonce and scope (R458). -/
opaque debugTokenOk : BitVec 256 → BitVec 3 → List Byte → Bool
/-- Whether the SAG_RESEAL parameters verify for RESEAL_CNT and the running LP image (R459). -/
opaque resealOk : Nat → Word → List Byte → Bool
/-- Signing key number n that LP generates, as its 64-byte public key (R459). -/
opaque signPub : Nat → BitVec 512
/-- ECDSA P-256 signature r‖s by the key of a public key over the bytes of a readout (R447). -/
opaque signReadout : BitVec 512 → List Byte → BitVec 512
/-- SHA-384 of the LP image of a version (R446). -/
opaque lpHash : Word → BitVec 384
/-- Whether the hash and the signature of an image of the Ware window verify for a target (R471). -/
opaque imageOk : Nat → List Byte → Bool
/-- The next bit of the 16-bit LFSR of the seal monitor after state s (R450): the polynomial is not given. -/
opaque sealNext : BitVec 16 → BitVec 16
/-- The bytes of a line whose value is lost and reads poisoned from then on (R73, R125, R336), reading number n. -/
opaque lostLine : Nat → BitVec 512
/-- The CODE of an event that the spec names and gives no code: 0 a serial number that fails its check (R354), 1 a private JTAG
instruction while locked (R480). -/
opaque openCode : Nat → Nat
/-- The reason byte of WRITE_IGNORED for a write of the SAG window: R438 asks for the event, and R427 lists no reason for it. -/
opaque openReason : Nat
/-- RESEAL_CNT where neither copy of the seal record is valid (R445): the spec states none. The old count is its argument. -/
opaque lostReseals : Nat → Nat
/-- The entry of Saggar's meters whose cell LP is writing when VDDS fails, if it is writing one, loss number n (R443). -/
opaque tornCell : Nat → Option (Fin 85)
/-- Which processor is the receiver of mailbox 12 to 15: 0 CP, 1 HP, 2 TP, 3 LP (R365: Nderam firmware names it). -/
opaque mailboxTo : Nat → Fin 4
/-- What a read of the SAG window returns while VDDS is out of range, reading number n: R461 gives no value. -/
opaque sagOff : Nat → BitVec 32
/-- A division corner: a fused threshold of zero makes the quotient of R419 undefined. -/
opaque marginOfZero : Nat → Int

end Sys2Proof.Config
end

