-- ==== Sys2Proof/Machine/State.lean ====
section
/-! DEFINITION. The state of one Nderam instance as plain data: every register, buffer, array, queue, mode and terminal the
spec gives the block, the queue of waiting commands, the reasons a step can stop, and the state after reset. -/

namespace Sys2Proof.Machine

/-- A sparse table keyed by number: an absent key stands for the array's empty value. -/
abbrev Map (α : Type) := List (Nat × α)

/-- Why the machine stops with a fault. -/
inductive Fault where
  /-- Raised by a register write that gives a reserved bit another value than the one it reads: R9 leaves the behaviour of
  the whole block undefined after it. Safe: the model goes no further where the spec says nothing. -/
  | reservedBitWritten
  deriving DecidableEq, Repr

/-- Why a command is refused. -/
inductive Refusal where
  /-- Raised for a row whose meaning is not written yet. Safe: nothing is claimed of it. -/
  | notModelled (mnemonic : String)
  /-- Raised by a private JTAG instruction while debug scope bit 1 is unlocked: R480 says that it acts and not what it does.
  Safe: the model stops instead of guessing. -/
  | privateJtag (ir : BitVec 8)
  deriving DecidableEq, Repr

/-- NDR_STATE.STATE (R354, R384), encoded 0 to 8 in this order. -/
inductive BState where
  | off | init | waitBackend | ready | quiesced | degraded | service | flush | halt
  deriving DecidableEq, Repr

/-- The message classes 0 to 5 (R47). -/
inductive Cls where
  | req | snp | rsp | dat | wb | mgt
  deriving DecidableEq, Repr

/-- Every message of R51. -/
inductive Msg where
  | rdShared | rdUnique | rdOnce | cleanUnique | wrFull | wrPartial | persist | load | store | loadRes | storeCond
  | fence | fenceP | beRead | wbDirty | evictClean | beWrite | beAbort
  | snpShared | snpUnique | snpFwdShared | snpFwdUnique | snpInval
  | cmp | snpResp | fwdDone | ack | beDurable | beStatus | cmpData | snpRespData | beData | beHealth | mgtPkt
  deriving DecidableEq, Repr

/-- Response status (R60). -/
inductive Stat where
  | ok | okPoison | errDecode | errTimeout | errExhausted | errProtect | errSpan
  deriving DecidableEq, Repr

/-- Cache state of a flit's GST field (R33). -/
inductive Gst where
  | i | s | e | m
  deriving DecidableEq, Repr

/-- What a transaction asks of its home: the requests of R102 and R108 and the internal ones of R112 to R114 and R156. -/
inductive Op where
  | rdShared | rdUnique | rdOnce | cleanUnique | wrFull | wrPartial | persist | load | store | loadRes | storeCond
  | fence | fenceP | wbDirty | evictClean | prefetch | pug | backInval | sweep
  deriving DecidableEq, Repr

/-- A request as the core carries it (R337, R412). -/
structure Req where
  op : Op
  /-- Endpoint ID of the ingress that sent it (R326). -/
  src : Nat
  /-- Internal tag at that ingress. -/
  tag : Nat
  /-- Requester ID (R55, R86): 0-63 agents, 64-71 D-ports, 72-75 processors, 76 Pug, 77 Trill, 80 + i the gateway of instance i. -/
  rid : Nat
  /-- Domain line address, address bits [51:6]. -/
  line : Nat
  be : BEn := 0
  data : Line := 0
  poison : Bool := false
  priv : Bool := false
  sec : Bool := false
  reg : Bool := false
  shint : Nat := 0
  /-- Pug job type. -/
  aux : Nat := 0
  deriving DecidableEq, Repr

/-- A flit as Nderam drives it, field by field (R33); `be` is the field at [167:104] (R35). -/
structure OutFlit where
  msg : Msg
  tag : Nat := 0
  rid : Nat := 0
  stat : Stat := .ok
  poison : Bool := false
  line : Nat := 0
  gst : Gst := .i
  dirty : Bool := false
  res : Bool := false
  ackreq : Bool := false
  /-- REG (R42): Nderam drives it as 0. -/
  reg : Bool := false
  /-- Received on an S-port with an opcode that its class does not assign: `msg` stands for the class only (R61, R62). -/
  odd : Bool := false
  dv : Bool := false
  be : BitVec 64 := 0
  seq : Nat := 0
  last : Bool := true
  data : Line := 0
  deriving DecidableEq, Repr

/-- What Nderam drives on a port's terminals, in order: a flit, a frame on an S-port, or inbound credits of a class on Xn_IN_CRD, one a
port clock (R31, R63, R300). -/
inductive Driven where
  | flit (endpoint : Nat) (f : OutFlit)
  | frame (sport : Nat) (fr : Frame)
  | credit (endpoint cls n : Nat)
  deriving DecidableEq, Repr

/-- One W1C bit or Bell bit, with the tick (plus 1; 0 = never) of the last hardware set and software clear (R350). -/
structure Sticky where
  bit : Bool := false
  setAt : Nat := 0
  clrAt : Nat := 0
  deriving DecidableEq, Repr

/-- The three written words of a region-table entry (R355). -/
structure RgnWords where
  base : Word := 0
  limit : Word := 0
  attr : Word := 0
  deriving DecidableEq, Repr

/-- One region-table entry: committed words, staging copy, PEND, WREF with the ticks of its last set and clear, and the
KEY_EMPTY mark of R276. -/
structure Region where
  cur : RgnWords := {}
  stage : RgnWords := {}
  pend : Bool := false
  wref : Bool := false
  wrefSetAt : Nat := 0
  wrefClrAt : Nat := 0
  keyTold : Bool := false
  deriving DecidableEq, Repr

/-- Where an internal tag stands (R337). -/
inductive TagPhase where
  /-- The completion has not come. -/
  | opened
  /-- Driven with ACKREQ = 1: the requester's ACK is awaited. -/
  | ackWait
  /-- The ingress timeout has expired: out of use until the real completion. -/
  | expired
  deriving DecidableEq, Repr

/-- An internal tag entry of a port: the request, the requester's own TAG, when it was accepted, whether it went to a home,
whether its completion is to be discarded (R72 step 3), the tracker the ACK goes to (R327), and the payload record (R412). -/
structure Tag where
  tag : Nat
  req : Req
  utag : Nat
  t0 : Nat
  phase : TagPhase := .opened
  dead : Bool := false
  phys : Nat := 0
  trk : Nat := 0
  held : Bool := false
  counts : Bool := true
  deriving DecidableEq, Repr

/-- A snoop a C-port has passed on and whose answer it still owes: the slice's physical number and the home tag (R327). -/
structure PortSnoop where
  agent : Nat
  line : Nat
  phys : Nat
  trk : Nat
  deriving DecidableEq, Repr

/-- A SNP_RESP_DATA payload kept until the home's hold notice (R412). -/
structure DataRec where
  agent : Nat
  line : Nat
  phys : Nat
  trk : Nat
  data : Line
  poison : Bool
  deriving DecidableEq, Repr

/-- A caching port. -/
structure CPort where
  resetIn : Bool := false
  closed : Bool := false
  stopped : Bool := false
  purging : Bool := false
  tags : List Tag := []
  snoops : List PortSnoop := []
  recs : List DataRec := []
  /-- Outbound credits of classes 0 to 5 (R63). -/
  credits : List Nat := [0, 0, 0, 0, 0, 0]
  /-- Inbound credits of classes 0 to 5 that the far side holds: with none, it sees the class as FULL (R63, R64, R69). -/
  inCrd : List Nat := [0, 0, 0, 0, 0, 0]
  /-- REQ credits kept back in QUIESCED and SERVICE (R385). -/
  owed : Nat := 0
  /-- Sampled flits that stand in the inbound boundary FIFOs, with the ticks at which they came: the core cannot take them yet (R66, R337,
  R412). -/
  inq : List (Flit × Nat) := []
  /-- The outbound boundary FIFOs, oldest first. -/
  outq : List OutFlit := []
  /-- Agent, TAG and line of write-backs whose CMP has entered the outbound FIFO (R121). -/
  wbOut : List (Nat × Nat × Nat) := []
  /-- Lines that this reset of the port has poisoned so far (R72 step 6, R73, R125). -/
  poisoned : List Nat := []
  deriving DecidableEq, Repr

/-- An access that stands in a D-port: its request, the requester's TAG and when it was sampled. -/
structure Access where
  req : Req
  utag : Nat
  t0 : Nat
  deriving DecidableEq, Repr

/-- A posted-store buffer entry (R211). -/
structure Psb where
  tag : Nat
  line : Nat
  be : BEn
  data : Line
  poison : Bool
  issued : Bool := false
  t0 : Nat := 0
  deriving DecidableEq, Repr

/-- A direct port. -/
structure DPort where
  resetIn : Bool := false
  closed : Bool := false
  stopped : Bool := false
  /-- Requests sampled and not yet taken by the core (R64). -/
  fifo : List Access := []
  psb : List Psb := []
  /-- LOADs that wait under R215 or R232, oldest first, each with how many buffered STOREs are older than it. -/
  loads : List (Access × Nat) := []
  /-- The access that waits or runs under R216. -/
  waiting : Option Access := none
  /-- A FENCE_P has issued its PERSISTs (R229). -/
  fencing : Bool := false
  tags : List Tag := []
  dlist : List Nat := []
  /-- PERSISTs of the port's own that no internal tag was free for (R228, R229). -/
  early : List Nat := []
  /-- First failure of the open epoch (R225). -/
  epoch : Option Stat := none
  /-- The granule recorded under R221. -/
  granule : Option Nat := none
  credits : List Nat := [0, 0, 0, 0, 0, 0]
  /-- Inbound credits that the far side holds (R63, R64, R69), and REQ credits kept back (R385). -/
  inCrd : List Nat := [0, 0, 0, 0, 0, 0]
  owed : Nat := 0
  outq : List OutFlit := []
  /-- Buffered STOREs that are older than the waiting access (R216). -/
  older : Nat := 0
  deriving DecidableEq, Repr

/-- A message ready at a B-port: its requester index 4s + c (R282), what it is, and when it entered. -/
structure BMsg where
  rq : Nat
  /-- true: a BE_READ, `id` its TAG; false: a bundle, `id` its identity. -/
  isRead : Bool
  id : Nat
  t0 : Nat
  deriving DecidableEq, Repr

/-- A bank arbiter (R281): an emergency has been granted since the pipeline's last grant; the pipeline has lost the last ranking; the requester
whose burst was granted last; an interrupted burst that resumes; and the tick since which each requester has waited (R287). -/
structure BankSt where
  urgent : Bool := false
  lost : Bool := false
  last : Option Nat := none
  resume : Option Nat := none
  since : Map Nat := []
  deriving DecidableEq, Repr

/-- A back-end port. -/
structure BPort where
  resetIn : Bool := false
  closed : Bool := false
  stopped : Bool := false
  ready : Bool := false
  /-- It has reported READY since the last start (R261, R485). -/
  reported : Bool := false
  scanning : Bool := true
  boundValid : Bool := false
  bound : Word := 0
  scan : BitVec 16 := 0
  hlth : List Word := []
  queue : List BMsg := []
  /-- The bundle whose flits hold the port. -/
  cur : Option Nat := none
  /-- Credit counter of each requester, signed (R284); absent = 0. -/
  ctrs : Map Int := []
  /-- Order of the first ranking lost since each demand requester last sent (R284 rule 1). -/
  lostAt : Map Nat := []
  lostSeq : Nat := 0
  /-- Tick at which its current credit window began (R284). -/
  winAt : Nat := 0
  /-- The requesters other than demand reads that hold an entry of the pending queue (R283). -/
  entries : List Nat := []
  credits : List Nat := [0, 0, 0, 0, 0, 0]
  /-- Inbound credits that the far side holds (R63, R64, R69). -/
  inCrd : List Nat := [0, 0, 0, 0, 0, 0]
  /-- TAGs kept out of use for late answers (R271). -/
  deadTags : List Nat := []
  /-- The key slot of the message behind each of them (R277). -/
  deadKeys : List (Nat × Nat) := []
  deriving DecidableEq, Repr

/-- A message between span gateways (R301, R306): source and destination instance, gateway, sequence number and flits. -/
structure SpanMsg where
  src : Nat
  dst : Nat
  gw : Nat
  eseq : Nat
  msg : Msg
  flits : List OutFlit
  t0 : Nat := 0
  deriving DecidableEq, Repr

/-- A gateway tag (R295): the local requester's request and TAG, the destination, and whether the completion has passed. -/
structure GwTag where
  tag : Nat
  req : Req
  dst : Nat
  t0 : Nat
  sent : Bool := false
  ackWait : Bool := false
  expired : Bool := false
  deriving DecidableEq, Repr

/-- A remote snoop the proxy has passed to local agents (R166, R167). -/
structure GwSnoop where
  line : Nat
  home : Nat
  tag : Nat
  msg : Msg
  frid : Nat
  ftag : Nat
  waits : List Nat
  data : Option Line := none
  poison : Bool := false
  dirty : Bool := false
  fwd : Bool := false
  /-- Agents that keep the line, and those that hold it no more. -/
  kept : List Nat := []
  gone : List Nat := []
  waitWb : List Nat := []
  /-- Set for the gateway's own snoops: conditioning (R297), victims (R168), leave (R321). -/
  own : Bool := false
  deriving DecidableEq, Repr

/-- A filter entry as stored: the bits and one odd-parity bit per byte (R143, R163). -/
structure SfWord where
  bits : BitVec 56 := 0
  par : BitVec 7 := 0x7F
  deriving DecidableEq, Repr

/-- A span gateway with its proxy bank. -/
structure Gateway where
  /-- Messages delivered in order and not yet handled. -/
  rx : List SpanMsg := []
  tags : List GwTag := []
  /-- Local requests that wait for their turn, oldest first (R296). -/
  lineq : List Req := []
  /-- The end-to-end buffer: sent and not covered by a SPAN_ACK (R306). -/
  tx : List SpanMsg := []
  /-- Next ESEQ to send, by 16·dst + class. -/
  txSeq : Map Nat := []
  /-- Next ESEQ expected, by 16·src + class. -/
  rxSeq : Map Nat := []
  /-- Messages delivered since the last SPAN_ACK and the tick of the first, by 16·src + class. -/
  ackDue : Map (Nat × Nat) := []
  snoops : List GwSnoop := []
  pf : Map SfWord := []
  pfNru : Map (BitVec 16) := []
  /-- Proxy sets whose NRU word fails its parity (R150, R168). -/
  nruBad : List Nat := []
  /-- The two copies of the UNFILTERED map, and the sets whose bit fails its parity in the first (R169, R398). -/
  unfiltered : List Nat := []
  unfilteredB : List Nat := []
  unfBad : List Nat := []
  deriving DecidableEq, Repr

/-- A flit that waits at an S-port for a link credit, with the link-header fields of its message (R301). -/
structure SpanFlit where
  src : Nat
  dst : Nat
  gw : Nat
  eseq : Nat
  flit : Flit
  deriving DecidableEq, Repr

/-- A span port's link (R301-R304). -/
structure SPort where
  resetIn : Bool := false
  stopped : Bool := false
  /-- Sn_LINK_UP. -/
  linkUp : Bool := false
  sentStep1 : Bool := false
  gotStep1 : Bool := false
  gotTrain : Bool := false
  trained : Bool := false
  up : Bool := false
  conflict : Bool := false
  neighbour : Nat := 0
  nbValid : Bool := false
  fseq : Nat := 0
  /-- Next FSEQ expected. -/
  expect : Nat := 0
  naked : Bool := false
  replay : List (Nat × Frame) := []
  /-- Flits that wait for a link credit or replay room, oldest first. -/
  outq : List SpanFlit := []
  /-- Flits of a multi-flit message received so far, by 64·src + 8·gw + class. -/
  partQ : Map (List OutFlit) := []
  resends : Nat := 0
  credits : List Nat := [0, 0, 0, 0, 0, 0]
  /-- Frames received since the last FACK was returned. -/
  unacked : Nat := 0
  /-- REQ credits kept back in QUIESCED and SERVICE (R385). -/
  owed : Nat := 0
  lastTrain : Nat := 0
  /-- Tick of the last frame with a good CRC, or of Sn_LINK_UP (R303). -/
  lastGood : Nat := 0
  /-- HELLO, ROUTE and SPAN_ACK packets received and not yet handled. -/
  mgt : List SpanMsg := []
  /-- Hop counts of the neighbour's last ROUTE (R312). -/
  hops : List Nat := []
  deriving DecidableEq, Repr

/-- The span management plane (R305-R321). -/
structure Domain where
  inst : Nat := 0
  strap : Bool := true
  role : Bool := true
  chanter : Nat := 0
  noChanter : Bool := false
  members : BitVec 16 := 1
  leaving : BitVec 16 := 0
  mver : Nat := 0
  time : BitVec 64 := 0
  /-- Ticks the domain time is to be slewed by, or held for (R314). -/
  slew : Int := 0
  hold : Nat := 0
  lastBeat : Nat := 0
  lastBeatSent : Nat := 0
  delay : Nat := 0
  echoId : Nat := 0
  pseq : Nat := 0
  rtag : Nat := 0
  /-- Routes out of use for a destination, 16·dst + S-port (R307). -/
  deadRoutes : List Nat := []
  /-- First tick since which an instance has had no live route, plus 1 (R309). -/
  noRouteAt : Map Nat := []
  join : BitVec 16 := 0
  /-- Barrier arrivals held by the Chanter: identity and instance (R315). -/
  arrived : List (Nat × Nat) := []
  /-- Open barrier of this instance. -/
  barrier : Option Nat := none
  /-- Management packets delivered in the sessions and not yet handled. -/
  mgtIn : List SpanMsg := []
  /-- Flue records waiting for a FUNNEL packet, and those not sent (R316). -/
  funnelQ : List (List Word) := []
  funnelLost : Nat := 0
  /-- Instances that have reported for the leave in progress (R321). -/
  reports : List Nat := []
  /-- Lost instances that some filter entry still names, because the poison of its line has found no place yet (R309). -/
  purging : List Nat := []
  helloAt : Nat := 0
  routeAt : Nat := 0
  deriving DecidableEq, Repr

/-- Where a tracker entry stands (the tracker states before R84, with the waits inside LOOKUP spelt out). -/
inductive TrkSt where
  /-- In the line queue, or ready to try LOOKUP. -/
  | queued
  /-- Holding its line in LOOKUP while its filter set is recovered (R153). -/
  | lookup
  /-- Waiting for a Bourdon slot (R131). -/
  | bourdon
  /-- SNOOP and FILL: answers, write-backs, a fill, a victim or filter copies are awaited. -/
  | gather
  /-- MIRROR: the write's acknowledgments are awaited. -/
  | mirror
  /-- Waiting for a location that may take its dirty line (R179 case 4, R185). -/
  | place
  /-- DURABLE: a BE_DURABLE is awaited. -/
  | durable
  /-- ACK_WAIT. -/
  | ackWait
  /-- A write-back beside a busy line (R119), or attached to its transaction. -/
  | deferred
  | attached
  deriving DecidableEq, Repr

/-- The tracker pools (R77). -/
inductive Pool where
  | general | writeback | internal
  deriving DecidableEq, Repr

/-- A snoop of a tracker whose answer is awaited: sharer index, message and send tick. -/
structure Snoop where
  who : Nat
  msg : Msg
  t0 : Nat
  deriving DecidableEq, Repr

/-- A write-back attached to a transaction (R119): sender, tracker that holds it, and whether its CMP is still to be sent (R121). -/
structure WbIn where
  who : Nat
  trk : Nat
  kept : Bool := true
  deriving DecidableEq, Repr

/-- The fill part of a transaction. -/
inductive FillSt where
  /-- No fill is needed, or it has come. -/
  | none
  /-- No location may be taken yet (R177). -/
  | noWay
  /-- BE_READ with this serial number is queued or out. -/
  | out (sn : Nat)
  deriving DecidableEq, Repr

/-- A tracker entry in use. -/
structure Trk where
  slice : Nat
  phys : Nat
  idx : Nat
  pool : Pool
  req : Req
  st : TrkSt := .queued
  t0 : Nat := 0
  snoops : List Snoop := []
  /-- Senders whose write-back is awaited under R121, with the tick since when. -/
  awaitWb : List (Nat × Nat) := []
  wbs : List WbIn := []
  /-- EXCLUSIVE holder at LOOKUP, the requester included (R121). -/
  holder : Option Nat := none
  /-- Agents that answered GST = S, and GST = I. -/
  keepS : List Nat := []
  gone : List Nat := []
  fill : FillSt := .none
  /-- A victim entry is awaited (R114); the way reserved for this transaction (R127). -/
  victim : Bool := false
  way : Option Nat := none
  /-- Acknowledgments awaited: filter copies, mirrors; tick of the latest send (R335). -/
  fcopies : Nat := 0
  mirrors : Nat := 0
  sentAt : Nat := 0
  /-- A forwarding snoop that waits for the filter copies (R87). -/
  fwd : Option (Nat × Msg) := none
  /-- The holder forwards: the home sends no completion of its own. -/
  forwarded : Bool := false
  data : Option Line := none
  poison : Bool := false
  /-- Dirty data received and not yet written (R91). -/
  dirtyIn : Option (Line × Bool) := none
  /-- The transaction's own write has been made (R95 step 1). -/
  wrote : Bool := false
  grant : Gst := .i
  stat : Stat := .ok
  res : Bool := false
  /-- The answers leave the entry unchanged, or EXCLUSIVE {requester} etc.: filter change due once all answers are in. -/
  lateFilter : Bool := false
  bcast : Bool := false
  bundle : Option Nat := none
  /-- Second entry of a LOAD_RES (R109), or the transaction a back-invalidation serves. -/
  mate : Option Nat := none
  /-- The second entry of a LOAD_RES (R109): it holds the granule's other line. -/
  second : Bool := false
  /-- Every agent this transaction snoops or waits for (R119). -/
  snooped : List Nat := []
  /-- The region-table entry found at LOOKUP (R356), its TYPE, and whether it is STRICT. -/
  rgn : Nat := 16
  rtype : Nat := 1
  strict : Bool := false
  /-- The own write took a transit slot, or goes through uncached (R180, R195). -/
  transit : Bool := false
  /-- A write-through of R185 step 3 is out. -/
  through : Bool := false
  /-- LOOKUP has been passed. -/
  passed : Bool := false
  /-- What the completion waits for is durable, or needs no durability. -/
  durDone : Bool := false
  /-- A CLEAN_UNIQUE that completes without data (R104). -/
  noData : Bool := false
  /-- The filter change of LOOKUP waits for its victim's way (R114). -/
  newEnt : Option (BitVec 56) := none
  cmpSent : Bool := false
  /-- The ACK, or whatever frees it, has come early. -/
  acked : Bool := false
  slot : Bool := false
  /-- The wait of R185 for a place in the pinned hold has been reported. -/
  told : Bool := false
  /-- Sharers that leave the entry as soon as its set may be written (R121, R153). -/
  leave : List Nat := []
  /-- A mirror write carries the filter-copy write of the same flow (R87). -/
  both : Bool := false
  /-- It has found every Bourdon slot taken (R131). -/
  full : Bool := false
  /-- LOOKUP found the line's Clean copy bad and invalidated it: its fill is the refetch of R30. -/
  refetch : Bool := false
  deriving DecidableEq, Repr

/-- Use of a line-cache location (R175). -/
inductive Use where
  | invalid | clean | budgeted | transit | mirror | ware | disabled | borrowed
  deriving DecidableEq, Repr

/-- A line-cache location (R173, R175). `line` is the local line address that stag and the set give. -/
structure Loc where
  use : Use := .invalid
  line : Nat := 0
  poison : Bool := false
  pin : Bool := false
  pf : Bool := false
  hway : Nat := 0
  data : Line := 0
  /-- Parity of the data, or of the tag, fails its check (R364). -/
  dbad : Bool := false
  tbad : Bool := false
  mirrored : Bool := false
  /-- The bundle that carries the present value. -/
  bundle : Option Nat := none
  /-- When it became dirty, for "the oldest" of R181. -/
  age : Nat := 0
  deriving DecidableEq, Repr

/-- A line of a slice's pinned hold (R185). -/
structure Held where
  slice : Nat
  line : Nat
  data : Line
  poison : Bool
  pinned : Bool := true
  bundle : Option Nat := none
  deriving DecidableEq, Repr

/-- A monitor entry (R219): granule = line address div 2, expiry tick, and whether its parity fails. -/
structure Mon where
  granule : Nat
  expiry : Nat
  bad : Bool := false
  deriving DecidableEq, Repr

/-- A set under Bourdon coverage: its next line number, the lines snooped, whether it has a coverage slot (R155-R158). -/
structure LostSet where
  slice : Nat
  set : Nat
  covered : Bool := true
  next : Nat := 0
  lines : Nat := 0
  lastAt : Nat := 0
  /-- It was lost while 256 sets were covered: its requests pass in arrival order (R158). -/
  waited : Bool := false
  deriving DecidableEq, Repr

/-- A set recovery (R153): requested, or its reply on the way with the partner's ways. -/
structure SetRec where
  slice : Nat
  set : Nat
  sent : Bool := false
  reply : Option (List SfWord) := none
  t0 : Nat := 0
  deriving DecidableEq, Repr

/-- A line in a bundle. -/
structure BLine where
  line : Nat
  data : Line
  poison : Bool
  deriving DecidableEq, Repr

/-- How far a bundle is (R265-R268). -/
inductive BundleSt where
  | formed | started | sent | late
  deriving DecidableEq, Repr

/-- A write bundle. `trk` names the write-back tracker of a write-through (R185). -/
structure Bundle where
  id : Nat
  port : Nat
  slice : Nat
  cls : Nat
  urgent : Bool
  lines : List BLine
  tag : Option Nat := none
  st : BundleSt := .formed
  sentFlits : Nat := 0
  preempts : Nat := 0
  firm : Bool := false
  t0 : Nat := 0
  key : Nat := 0
  meters : List Nat := []
  trk : Option Nat := none
  job : Option Nat := none
  flush : Bool := false
  deriving DecidableEq, Repr

/-- How far a BE_READ is. -/
inductive ReadSt where
  | queued | out | held | late
  deriving DecidableEq, Repr

/-- A BE_READ (R264, R268). -/
structure Read where
  /-- Serial number inside the core; the port's TAG is given when it is sent. -/
  sn : Nat
  tag : Nat
  port : Nat
  slice : Nat
  phys : Nat
  trk : Nat
  line : Nat
  pref : Bool
  way : Option Nat
  st : ReadSt := .queued
  t0 : Nat := 0
  /-- The key slot in use since it was sent, and the bound then in force (R270, R275). -/
  key : Nat := 0
  bound : Option Nat := none
  sentAt : Nat := 0
  deriving DecidableEq, Repr

/-- A completion on its way to a port, gateway or buffer. -/
structure Cmp where
  dst : Nat
  tag : Nat
  data : Option Line := none
  stat : Stat := .ok
  poison : Bool := false
  gst : Gst := .i
  res : Bool := false
  ackreq : Bool := false
  line : Nat := 0
  phys : Nat := 0
  trk : Nat := 0
  deriving DecidableEq, Repr

/-- A filter-copy write (R151). -/
structure FiltW where
  slice : Nat
  trk : Nat
  set : Nat
  way : Nat
  word : SfWord
  deriving DecidableEq, Repr

/-- A mirror write (R95), which may carry the filter-copy write of the same flow (R87). -/
structure MirW where
  slice : Nat
  trk : Nat
  set : Nat
  hway : Nat
  line : Nat
  data : Line
  poison : Bool
  transit : Bool
  filt : Option FiltW := none
  deriving DecidableEq, Repr

/-- A message to the Saggar inlet (R439): meter, quantity, amount. -/
structure MeterMsg where
  meter : Nat
  q : Nat
  amount : Nat
  deriving DecidableEq, Repr

/-- Messages in flight inside the core (R334). Acknowledgments carry slice and tracker. -/
structure Fab where
  reqs : List Req := []
  cmps : List Cmp := []
  mirW : List MirW := []
  mirA : List (Nat × Nat) := []
  filtW : List FiltW := []
  filtA : List (Nat × Nat) := []
  mirRel : List (Nat × Nat) := []
  closeN : List (Nat × Nat) := []
  holdN : List Ref := []
  abandon : List (Nat × Nat) := []
  meters : List MeterMsg := []
  deriving DecidableEq, Repr

/-- Change records the partner keeps for a home tracker number (R151): slice, tracker, line. -/
structure ChangeRec where
  slice : Nat
  trk : Nat
  lines : List Nat
  deriving DecidableEq, Repr

/-- A Ware line: written bytes, which of them are written, poison (R190). -/
structure WareLine where
  data : Line := 0
  known : BEn := 0
  bad : Bool := false
  deriving DecidableEq, Repr

/-- Role of a logical slice (R360). -/
inductive Role where
  | active | spare | migrating | cutover | takeover | recovering
  deriving DecidableEq, Repr

/-- A Pug job (R197-R201). -/
structure PugJob where
  busy : Bool := false
  typ : Nat := 0
  next : Nat := 0
  limit : Nat := 0
  pat : BitVec 64 := 0
  /-- Every line has been issued. -/
  issued : Bool := false
  aborting : Bool := false
  inFlight : Nat := 0
  /-- Lines of CLEAN that wait for a bundle. -/
  waits : List (Nat × Nat) := []
  lastIssue : Nat := 0
  serial : Nat := 0
  deriving DecidableEq, Repr

/-- A Trill detector (R203, R204). -/
structure Detector where
  rid : Nat
  shint : Nat
  last : Nat
  stride : Int := 0
  conf : Nat := 0
  issuedTo : Nat := 0
  used : Nat := 0
  deriving DecidableEq, Repr

/-- The bounds of the policies at start, as the 32 bytes of SET_BOUNDS (R391). -/
def startBounds : List Nat := [0, 4, 1, 3, 1, 80, 0, 0, 0, 255, 0, 255, 0, 255, 0, 255,
  0, 255, 0, 255, 0, 255, 0, 255, 0, 255, 0, 255, 0, 0, 0, 0]

/-- The autonomic policies and their bounds (R391, R393, R397). -/
structure Policy where
  b : Nat := 4
  exactMax : Nat := 3
  costMax : Nat := 8
  /-- The number of CP's latest choice of the weights, none while they have their start values (R287). -/
  chosen : Option Nat := none
  /-- The bounds in force at CP's latest evaluation, which the weights keep. -/
  evalBounds : List Nat := startBounds
  bounds : List Nat := startBounds
  /-- SPARE_LEFT threshold of each B-port. -/
  health : List Nat := List.replicate 16 0x1000
  deriving DecidableEq, Repr

/-- Counters of an arbiter requester (R287). -/
structure ArbCtr where
  grants : Nat := 0
  waits : Nat := 0
  maxWait : Nat := 0
  /-- Credit counter of a bank-arbiter requester (R281). -/
  credit : Int := 0
  deriving DecidableEq, Repr

/-- An error-log entry (R363). -/
structure LogEntry where
  valid : Bool := false
  addr : Nat := 0
  avalid : Bool := false
  cat : Nat := 0
  kind : Nat := 0
  unit : Nat := 0
  way : Nat := 0
  set : Nat := 0
  seq : Nat := 0
  tick : BitVec 64 := 0
  deriving DecidableEq, Repr

/-- A Flue word: 32 bits, FIRST, GAP mark, and whether its parity fails (R423, R430). -/
structure FWord where
  w : Word
  first : Bool
  gap : Bool := false
  bad : Bool := false
  deriving DecidableEq, Repr

/-- A Flue bank: its committed words, and how many of them have been read. -/
structure FBank where
  words : List FWord := []
  read : Nat := 0
  deriving DecidableEq, Repr

/-- The Flue (R423-R433). -/
structure Flue where
  /-- The bank the reader is in, and whether it is bank B. -/
  old : FBank := {}
  rb : Bool := false
  /-- The newer bank, if the producer has moved on. -/
  new : Option FBank := none
  /-- Records that wait while a take is decided. -/
  staging : List (List Word) := []
  taking : Bool := false
  seq : Nat := 0
  gapNext : Bool := false
  lastWord : Word := 0
  tag : BitVec 4 := 0
  lost : Word := 0
  rewound : Nat := 0
  deriving DecidableEq, Repr

/-- What a key slot holds (R276, R456). -/
inductive KeySlot where
  | empty | bypass | key (k : BitVec 512)
  deriving DecidableEq, Repr

/-- The voltage loop and the Cones (R358, R419-R422). -/
structure Volt where
  code : Nat := 60
  floor : Nat := 0
  wanted : Nat := 60
  held60 : Bool := false
  floorAt : Nat := 0
  lowAt : Nat := 0
  speed : Map (BitVec 16) := []
  temp : Map (BitVec 16) := []
  excluded : List Nat := []
  speedR : BitVec 16 := 0
  tempR : BitVec 16 := 0
  marginR : BitVec 16 := 0
  deriving DecidableEq, Repr

/-- Fettler (R403, R404). -/
structure Fettler where
  cat : Nat := 0
  unit : Nat := 0
  index : Nat := 0
  /-- Tick at which the present pass began, and whether it is known to have exceeded its period. -/
  passAt : Nat := 0
  overdue : Bool := false
  deriving DecidableEq, Repr

/-- Bisque (R405-R418). -/
structure Bisque where
  /-- Where the next way is borrowed, and when the last one was (R405). -/
  phys : Nat := 0
  bank : Nat := 0
  way : Nat := 0
  borrowAt : Nat := 0
  borrowed : List (Nat × Nat × Nat) := []
  spare : Option Nat := some 32
  /-- The spare is in its full test (R408 step 7). -/
  testing : Bool := false
  /-- A migration or rebuild: logical slice, physical slice left, physical slice entered (R408). -/
  migr : Option (Nat × Nat × Nat) := none
  /-- Its cut-over window is open. -/
  window : Bool := false
  /-- It is a rebuild after a takeover (R416). -/
  rebuild : Bool := false
  /-- A physical slice that finishes its transactions before its requested replacement (R411). -/
  repl : Option Nat := none
  /-- Logical slices that a chain of R417 still has to move. -/
  walk : List Nat := []
  /-- Tick of the last full test of each physical slice. -/
  tested : Map Nat := []
  rotAt : Nat := 0
  deriving DecidableEq, Repr

/-- The fabric's failed parts and a table change (R332, R339). -/
structure FabricSt where
  links : List Nat := []
  routers : List Nat := []
  quiesce : Bool := false
  since : Nat := 0
  /-- The logical slices whose requests wait while a table change is in progress (R339). -/
  dests : List Nat := []
  /-- The logical slices in the window of a takeover, or of a requested replacement (R130, R411, R413). -/
  taken : List Nat := []
  detour : Bool := false
  testFails : Map Nat := []
  testAt : Map Nat := []
  deriving DecidableEq, Repr

/-- NDR_STATE's STATE and PREV. -/
structure StReg where
  cur : BState := .init
  prev : BState := .off
  deriving DecidableEq, Repr

/-- First alarm (R435, R436). -/
structure AlarmFirst where
  bit : Nat := 0
  valid : Bool := false
  tick : BitVec 64 := 0
  deriving DecidableEq, Repr

/-- The slices' arrays (R23), indexed by physical slice for the line cache and by logical slice for the filters. -/
structure Arrays where
  trk : List Trk := []
  /-- Locations by (phys·2048 + set)·16 + way. -/
  lc : Map Loc := []
  lcNru : Map (BitVec 16) := []
  /-- Entries by (slice·4096 + set)·16 + way. -/
  sfHome : Map SfWord := []
  sfPart : Map SfWord := []
  sfNru : Map (BitVec 16) := []
  /-- NRU words whose parity fails: line-cache (false) or filter (true) and key. -/
  nruBad : List (Bool × Nat) := []
  /-- Filter ways reserved: slice, set, way, tracker (R127). -/
  resv : List (Nat × Nat × Nat × Nat) := []
  /-- Retired filter locations, by physical array, set, way: 2·phys is a physical slice's own partition, 2·phys + 1 its copy of the partner's
  (R159). Disabled line-cache locations, by physical slice, set, way; ways disabled whole (R186, R187). -/
  retired : List (Nat × Nat × Nat) := []
  disabled : List (Nat × Nat × Nat) := []
  disWays : List (Nat × Nat) := []
  /-- Filter locations, with their slice, and line-cache locations that leave service once what they hold has moved (R159, R186). -/
  retiring : List (Nat × Nat × Nat × Nat) := []
  leaving : List (Nat × Nat × Nat) := []
  /-- Physical slices whose replacement is requested (R160, R187). -/
  replace : List Nat := []
  /-- The bearing slice that the Bourdon arbiter last granted a slot while requests waited for one (R131). -/
  slotRR : Nat := 0
  /-- What waits for a tracker entry, by pool, slice and who waits, in order of arrival (R77, R137). -/
  waits : List (Nat × Nat × Nat) := []
  /-- The fabric input that each slice last gave a general entry to (R137). -/
  inputRR : Map Nat := []
  /-- Failure ticks of a location: kind (0 line cache, 1 filter), physical slice or filter array, set, way, tick. -/
  fails : List (Nat × Nat × Nat × Nat × Nat) := []
  hold : List Held := []
  /-- Monitor entries by slice·12 + (requester ID − 64). -/
  mon : Map Mon := []
  lost : List LostSet := []
  setRec : List SetRec := []
  changes : List ChangeRec := []
  ware : Map WareLine := []
  wcap : Nat := 0
  wgoal : Option Nat := none
  age : Nat := 0
  deriving DecidableEq, Repr

/-- The part of the machine that serves data traffic: ports, slices, back-end side, fabric, span, events. -/
structure Core where
  tick : BitVec 64 := 0
  free : Nat := 0
  st : StReg := {}
  regs : Map Word := []
  flags : Map Sticky := []
  ctr : Map Nat := []
  rgn : Map Region := []
  cport : Map CPort := []
  dport : Map DPort := []
  bport : Map BPort := []
  sport : Map SPort := []
  gw : Map Gateway := []
  dom : Domain := {}
  arr : Arrays := {}
  bearer : Map Nat := []
  role : Map Role := []
  out : List Nat := []
  bundles : List Bundle := []
  nextBundle : Nat := 0
  reads : List Read := []
  fab : Fab := {}
  wire : List Driven := []
  fabric : FabricSt := {}
  pug : Map PugJob := []
  lcOff : Bool := false
  lcBusy : Bool := false
  lcReen : Bool := false
  lcStop : Bool := false
  trill : Map (List Detector) := []
  pol : Policy := {}
  arb : Map ArbCtr := []
  hist : Map Nat := []
  log : Map LogEntry := []
  logSeq : Nat := 0
  bkt : Map Nat := []
  flue : Flue := {}
  alarmFirst : AlarmFirst := {}
  keys : Map KeySlot := []
  /-- Contents that wait until nothing outstanding uses their slot (R277). -/
  keyNext : Map KeySlot := []
  /-- Bank 8·slice + bank: its last grant was an emergency; its pipeline lost the last ranking (R281). -/
  bankSt : Map BankSt := []
  /-- In-flight transactions end under R244: FLUSH, and a warm reset that has been taken (R243, R253). -/
  ending : Bool := false
  /-- QUIESCE has stopped the REQ credits, until RESUME (R385, R389). -/
  reqStop : Bool := false
  /-- Sets that Fettler has to scrub at once: category, physical slice or gateway bank, set (R404). -/
  urgent : List (Nat × Nat × Nat) := []
  /-- Ticks of the last leak of the buckets and of CP's last evaluation (R362, R397). -/
  leakAt : Nat := 0
  evalAt : Nat := 0
  volt : Volt := {}
  deriving DecidableEq, Repr

/-- A mailbox (R366). -/
structure Mailbox where
  lo : Word := 0
  ptr : BitVec 64 := 0
  full : Bool := false
  wpriv : Bool := false
  wsec : Bool := false
  writer : Nat := 0
  deriving DecidableEq, Repr

/-- A Ligature lock (R370, R372). -/
structure Lock where
  owner : Nat := 0
  broken : Bool := false
  dead : Nat := 0
  deriving DecidableEq, Repr

/-- Where a command came from: a mailbox, or a relay from the Chanter with its tag (R313). -/
inductive CmdFrom where
  | box (mb : Nat) (ptr : BitVec 64)
  | relay (rtag : Nat) (inst : Nat)
  deriving DecidableEq, Repr

/-- A command CP has taken and not ended (R381). -/
structure Cmd where
  op : Nat
  origin : CmdFrom
  params : List Byte
  t0 : Nat
  limit : Nat
  /-- Targets of a DOMAIN command and the status each has given (R383). -/
  domain : Bool := false
  targets : BitVec 16 := 0
  stats : Map Nat := []
  rtags : List (Nat × Nat) := []
  /-- The command's own progress: 0 taken, then as its meaning says. -/
  phase : Nat := 0
  note : Nat := 0
  deriving DecidableEq, Repr

/-- A reply pointer that waits for its mailbox (R379). -/
structure Reply where
  mb : Nat
  ptr : BitVec 64
  deriving DecidableEq, Repr

/-- A processor's 1 MiB memory (R23): cleared, or holding the image of a slot (false A, true B); and whether one of its words fails parity
(R398). -/
structure ProcMem where
  image : Option Bool := none
  bad : Bool := false
  deriving DecidableEq, Repr

/-- The control path: mailboxes, locks, commands, processors. -/
structure Ctl where
  mbx : Map Mailbox := []
  lig : Map Lock := []
  run : List Cmd := []
  replies : List Reply := []
  /-- CP, HP, TP stopped by a fault, and their image versions. -/
  down : List Nat := []
  up : Bool := false
  versions : List Word := [0, 0, 0, 0]
  /-- The memories of CP, HP and TP. -/
  mem : Map ProcMem := []
  /-- How often the image of a faulted processor has failed to authenticate since its fault (R18, R472). -/
  tries : Map Nat := []
  deriving DecidableEq, Repr

/-- A spread counter with its accumulator (R439-R444). -/
structure Meter where
  acc : Nat := 0
  base : Nat := 0
  cells : Nat := 0
  torn : Nat := 0
  overQ : Nat := 0
  underQ : Nat := 0
  deriving DecidableEq, Repr

/-- Saggar (R437-R461). -/
structure Saggar where
  meters : Map Meter := []
  rseq : Nat := 0
  sealed : Bool := false
  cause : Nat := 2
  reseals : Nat := 0
  signKey : Option (BitVec 512) := none
  lfsr : BitVec 16 := 1
  bad : Nat := 0
  loopOpen : Bool := false
  present : Bool := false
  erasing : Bool := false
  lpRun : Bool := false
  lpVer : Word := 0
  lpRestarted : Bool := false
  inletFault : Bool := false
  nportFault : Bool := false
  debugOpen : BitVec 3 := 0
  nonce : BitVec 256 := 0
  cycle : Nat := 0
  cycleNonce : BitVec 256 := 0
  cycleAt : Nat := 0
  /-- This instance was the Chanter at the latest cycle: a new Chanter starts one at once (R449). -/
  cycleRole : Bool := false
  /-- Latest readout collected from each member. -/
  collected : Map (List Byte) := []
  /-- Last MEDIA_WR and DUR bytes by meter since, per B-port (R440). -/
  media : Map Nat := []
  durSince : Map Nat := []
  /-- Key records (R456). -/
  keyRecs : Map KeySlot := []
  lpSlot : Bool := false
  /-- LP's memory. -/
  lpMem : ProcMem := {}
  deriving DecidableEq, Repr

/-- A persistence record's fields (R255). -/
structure Record where
  close : Bool
  seq : Nat
  gen : Nat
  uid : BitVec 64
  persMap : BitVec 16
  holdupMap : BitVec 16
  lostMap : BitVec 16
  cause : Nat
  written : Nat
  incomplete : Nat
  pinnedLost : Nat
  spanLost : Nat
  ticks : Nat
  regions : List (Word × Word)
  deriving DecidableEq, Repr

/-- What a record slot of the N-port store holds (R256, R259). -/
inductive RecSlot where
  | erased | invalid | valid (r : Record)
  deriving DecidableEq, Repr

/-- Why a record is being written. -/
inductive RecWhy where
  | enterReady | region (r : Nat) | close
  deriving DecidableEq, Repr

/-- Persistence (R242-R261). -/
structure Pers where
  slot0 : RecSlot := .erased
  slot1 : RecSlot := .erased
  seq : Nat := 0
  gen : Nat := 0
  genOpen : Bool := false
  /-- The record write under way, and whether its latest attempt has failed. -/
  write : Option (RecWhy × Record) := none
  failed : Bool := false
  /-- An attempt of it is in progress. -/
  attempt : Bool := false
  /-- Region commits that wait for a record write (R257). -/
  commits : List Nat := []
  result : Nat := 0
  holdupMap : BitVec 16 := 0
  postedMap : BitVec 16 := 0
  cnt0 : Nat := 0
  cnt1 : Nat := 0
  ticks : Nat := 0
  report : Option Record := none
  /-- Flush: step-1 tick, cause, counts. -/
  flushAt : Nat := 0
  flushCause : Nat := 0
  written : Nat := 0
  /-- Lines found lost in both copies (R247). -/
  bothLost : List Nat := []
  spanLost : Nat := 0
  closing : Bool := false
  meters : List Nat := []
  /-- B-ports that a flush of R251 does not wait for. -/
  flushSkip : BitVec 16 := 0
  deriving DecidableEq, Repr

/-- Power, reset and start (R465-R486). -/
structure Pwr where
  pwrfail : Bool := false
  vddsWarn : Bool := false
  service : Bool := false
  resetN : Bool := false
  resetPend : Bool := false
  warmPend : Bool := false
  warm : Bool := false
  origin : Nat := 0
  kind : Bool := false
  fallback : BitVec 3 := 0
  slot : BitVec 3 := 0
  /-- The image selector records of the store: active slot of CP, HP, TP. -/
  sel : BitVec 3 := 0
  triedOther : Bool := false
  calfail : Nat := 0
  testMode : Bool := false
  calibrated : Bool := false
  loaded : List Nat := []
  flushAfterCal : Bool := false
  tInit : Word := 0
  tReady : Word := 0
  substituted : Bool := false
  vddsUp : Bool := true
  seconds : Nat := 0
  resv : Word := 0
  deriving DecidableEq, Repr

/-- The counter snapshot (R352). -/
structure Snap where
  active : Bool := false
  pending : Bool := false
  /-- Captured words by register offset. -/
  words : Map Word := []
  arbSel : Word := 0
  fabSel : Word := 0
  deriving DecidableEq, Repr

/-- The M-port's response terminals (R464). -/
structure MPort where
  rsp : Bool := false
  rdata : Word := 0
  err : Bool := false
  deriving DecidableEq, Repr

/-- The machine. -/
structure State where
  pending : List Instr := []
  pram : List Host.Cell := []
  /-- Bytes of packet RAM whose parity fails (R348, R364). -/
  pramBad : List Nat := []
  core : Core := {}
  ctl : Ctl := {}
  sag : Saggar := {}
  pers : Pers := {}
  pwr : Pwr := {}
  fet : Fettler := {}
  bisq : Bisque := {}
  snap : Snap := {}
  mport : MPort := {}
  deriving DecidableEq, Repr

/-- The machine right after cold reset: PWR_OK has just been taken, NDR_STATE reads INIT (R354) and every register holds its
reset value. -/
def State.reset : State := { sag := { nonce := Config.debugNonce 0 } }

end Sys2Proof.Machine
end

