-- ==== Sys2Proof/Machine/Map.lean ====
section
/-! DEFINITION. Reading and writing the sparse tables of the state, and the bit helpers that every family uses. -/

namespace Sys2Proof.Machine

/-- The entry of key k, if the table lists one. -/
def mfind? {α : Type} : Map α → Nat → Option α
  | [], _ => none
  | (k', a) :: t, k => if k' = k then some a else mfind? t k

/-- The entry of key k, or d where the table lists none. -/
def mget {α : Type} (m : Map α) (k : Nat) (d : α) : α := (mfind? m k).getD d

/-- The table with entry a at key k; keys stay in rising order. -/
def mput {α : Type} : Map α → Nat → α → Map α
  | [], k, a => [(k, a)]
  | (k', a') :: t, k, a =>
    if k < k' then (k, a) :: (k', a') :: t
    else if k' = k then (k, a) :: t
    else (k', a') :: mput t k a

/-- The table without key k. -/
def mdel {α : Type} : Map α → Nat → Map α
  | [], _ => []
  | (k', a') :: t, k => if k' = k then mdel t k else (k', a') :: mdel t k

/-- The table with the entry of key k changed by f. -/
def mmod {α : Type} (m : Map α) (k : Nat) (d : α) (f : α → α) : Map α := mput m k (f (mget m k d))

/-- Bit b of a number, as 0 or 1 for a field. -/
def b2n (b : Bool) : Nat := if b then 1 else 0

/-- Bits [hi:lo] of a word, as a number. -/
def fld (w : Word) (hi lo : Nat) : Nat := (w.toNat / 2 ^ lo) % 2 ^ (hi + 1 - lo)

/-- The word of a number (its low 32 bits). -/
def wd (n : Nat) : Word := BitVec.ofNat 32 n

/-- Bits [31:0] and [63:32] of a wider number. -/
def loW (n : Nat) : Word := wd n
/-- The upper word of a number. -/
def hiW (n : Nat) : Word := wd (n / 2 ^ 32)

/-- Number of bits set among bits 0 to n-1. -/
def popN (x : Nat) : Nat → Nat
  | 0 => 0
  | n + 1 => b2n (x.testBit n) + popN x n

/-- The bit positions below n that are set, ascending. -/
def bitsOf (x n : Nat) : List Nat := (List.range n).filter (fun i => x.testBit i)

/-- The number with exactly the listed bits set. -/
def ofBits (l : List Nat) : Nat := l.foldl (fun a i => a ||| 2 ^ i) 0

/-- The lowest number below n that does not satisfy p, if any. -/
def firstFree (n : Nat) (p : Nat → Bool) : Option Nat := (List.range n).find? (fun i => !p i)

/-- Saturating addition (counters that saturate). -/
def satAdd (a b mx : Nat) : Nat := min (a + b) mx

/-- A list whose element i is changed by f. -/
def modAt {α : Type} (l : List α) (i : Nat) (f : α → α) : List α :=
  l.mapIdx (fun j a => if j = i then f a else a)

/-- Little-endian value of a byte list (R6). -/
def leVal : List Byte → Nat
  | [] => 0
  | b :: t => b.toNat + 256 * leVal t

/-- The n little-endian bytes of a value (R6). -/
def leBytes (v : Nat) : Nat → List Byte
  | 0 => []
  | n + 1 => BitVec.ofNat 8 v :: leBytes (v / 256) n

/-- Payload byte i of a line (R32). -/
def lineByte (l : Line) (i : Nat) : Byte := l.extractLsb' (8 * i) 8

/-- The line of a byte list, byte 0 first. -/
def lineOf (bs : List Byte) : Line := BitVec.ofNat 512 (leVal bs)

/-- The line mask of byte enables: byte i all ones where bit i is set (R35). -/
def beMask (be : BEn) : Line :=
  BitVec.ofNat 512 ((List.range 64).foldl (fun a i => if be.getLsbD i then a ||| (255 <<< (8 * i)) else a) 0)

/-- Enabled bytes of `new` over `old` (R39). -/
def mergeLine (be : BEn) (new old : Line) : Line := (new &&& beMask be) ||| (old &&& ~~~ beMask be)

/-- The bytes selected by the byte enables, zero elsewhere (R39). -/
def selectLine (be : BEn) (l : Line) : Line := l &&& beMask be

end Sys2Proof.Machine
end

