-- ==== Sys2Proof/Machine/Flags.lean ====
section
/-! DEFINITION. The sticky flags: a bit that hardware sets and software clears, with its AGAIN bit (R350, R376); and parity. -/

namespace Sys2Proof.Machine

/-- The key of bit b of the register at an offset in `Core.flags`. -/
def flagKey (off b : Nat) : Nat := off * 32 + b

/-- Register offset of host bank i's Bell group (R376). -/
def bellBase (i : Nat) : Nat := 0x10200 + 0x20 * i

/-- Where the AGAIN bit of a W1C or Bell bit lies (R350, R376): its register and bit, none for an AGAIN bit itself. -/
def againOf (off b : Nat) : Option (Nat × Nat) :=
  if 0x10200 ≤ off ∧ off < 0x10280 then
    if off % 0x20 = 0 then some (off + 0x10, b) else none
  else if off < 0x10100 ∧ 0x10000 ≤ off then (if b = 1 then some (off, 2) else none)
  else if off = 0x10 then (if b = 8 then some (off, 9) else none)
  else if 0x100 ≤ off ∧ off < 0x200 then (if b = 8 then some (off, 9) else none)
  else if off = 0x604 then (if b = 3 then some (off, 4) else none)
  else if off = 0x800 then (if b = 11 then some (off, 12) else none)
  else if off = 0x904 then (if b = 0 then some (off, 3) else none)
  else if off = 0x20008 then (if b = 16 then some (off, 18) else none)
  else if off = 0x20100 then some (0x20104, b)
  else if 0x30000 ≤ off ∧ off < 0x30100 then (if b < 4 then some (off, 4) else none)
  else if off = 0x40004 then (if b < 16 then some (off, 16 + b) else none)
  else if off = 0x40010 then (if b = 11 then some (off, 12) else none)
  else if off = 0x41004 then (if b = 16 then some (off, 17) else none)
  else if off = 0x42004 then (if b = 22 then some (off, 23) else none)
  else if 0x50000 ≤ off ∧ off < 0x51000 then (if b = 6 then none else some (off, 6))
  else if 0x80000 ≤ off ∧ off < 0x98000 then
    if off % 0x1000 = 0x408 then (if b < 3 then some (off, 3) else none)
    else (if b < 4 then some (off, 4) else none)
  else if 0x98000 ≤ off ∧ off < 0x9C000 then (if b = 8 then none else some (off, 8))
  else none

/-- The flag bit b of the register at an offset. -/
def flagGet (m : Map Sticky) (off b : Nat) : Bool := (mget m (flagKey off b) {}).bit

/-- Hardware sets a flag in tick t. Where software cleared it in the same tick, the AGAIN bit is set too (R350). -/
def flagSet (m : Map Sticky) (t off b : Nat) : Map Sticky :=
  let s := mget m (flagKey off b) {}
  let m' := mput m (flagKey off b) { s with bit := true, setAt := t + 1 }
  if s.clrAt = t + 1 then
    match againOf off b with
    | some (o, b') =>
      mput m' (flagKey o b') { mget m' (flagKey o b') {} with bit := true, setAt := t + 1 }
    | none => m'
  else m'

/-- Software writes 1 to a flag in tick t: it clears, unless hardware has set it in the same tick; then it stays 1 and its AGAIN
bit is set. A bit that reads 0 is unaffected (R350). -/
def flagClr (m : Map Sticky) (t off b : Nat) : Map Sticky :=
  let s := mget m (flagKey off b) {}
  if s.bit = false then m
  else if s.setAt = t + 1 then
    match againOf off b with
    | some (o, b') =>
      mput (mput m (flagKey off b) { s with clrAt := t + 1 }) (flagKey o b')
        { mget m (flagKey o b') {} with bit := true, setAt := t + 1 }
    | none => m
  else mput m (flagKey off b) { s with bit := false, clrAt := t + 1 }

/-- The flags of a register as bits of a word. -/
def flagWord (m : Map Sticky) (off : Nat) : Nat :=
  ofBits ((List.range 32).filter (fun b => flagGet m off b))

/-- Odd parity bit of a byte: the nine bits together hold an odd number of ones (R44). -/
def oddPar (b : Byte) : Bool := popN b.toNat 8 % 2 = 0

/-- The odd-parity bits of the low n bytes of a number, byte i in bit i. -/
def parBits (x n : Nat) : Nat :=
  ofBits ((List.range n).filter (fun i => oddPar (BitVec.ofNat 8 (x / 2 ^ (8 * i)))))

/-- The parity word of a snoop-filter or proxy-filter entry (R143). -/
def sfPar (x : BitVec 56) : BitVec 7 := BitVec.ofNat 7 (parBits x.toNat 7)

/-- A filter word with its parity. -/
def sfMk (x : BitVec 56) : SfWord := { bits := x, par := sfPar x }

/-- Whether a filter word passes its check. -/
def sfGood (w : SfWord) : Bool := w.par == sfPar w.bits

end Sys2Proof.Machine
end

