-- ==== Sys2Proof/Machine/RegMap.lean ====
section
/-! DEFINITION. The register map of register space (R344): for every offset, which bits software writes, which of them need PRIV
and SECURE, which are reserved test controls, which are W1C, the reset value and the reset kind (R7, R348, R349). -/

namespace Sys2Proof.Machine

/-- What an offset of register space holds. Masks are numbers below 2^32. -/
structure RegInfo where
  /-- RW and RWS bits. -/
  rw : Nat := 0
  /-- RW-P bits. -/
  rwp : Nat := 0
  /-- Reserved bits of code RW or RWS: written back as read (R9, R348). -/
  rsv : Nat := 0
  /-- Reserved bits of code WO: they read zero, hold nothing and are written as 0 (R7, R9). -/
  wo : Nat := 0
  /-- W1C bits. -/
  w1c : Nat := 0
  /-- Reset value of the bits that software writes. -/
  reset : Nat := 0
  /-- true: warm reset returns the register to its reset value; false: cold reset only (R349, R7 for RWS). -/
  warm : Bool := true
  deriving DecidableEq, Repr

/-- The page at 0x0000_0000 (R353 to R358, R261, R323, R486, R352). -/
def regInfoGlobal (o : Nat) : RegInfo :=
  if o = 0x10 then { w1c := 0x300 }
  else if o = 0x14 then { rw := 0xF, rsv := 0xFFFFFFF0 }
  else if 0x100 ≤ o ∧ o < 0x200 then
    if o % 16 < 8 then { rwp := 0xFFFFFFFF, warm := false }
    else if o % 16 = 8 then { rwp := 0xFF7, rsv := 0xFFFFF008, warm := false }
    else { rwp := 0x100, rsv := 0xFFFFFC00, w1c := 0x200, warm := false }
  else if o = 0x200 then { rw := 0x3F, rsv := 0xFFFFFFC0 }
  else if o = 0x280 then { rwp := 0x00FFFF00, reset := 0x00780000, warm := false }
  else if o = 0x300 then { rsv := 0xFFFFFFF0 }
  else if o = 0x600 then { rw := 0x3FFF, rsv := 0xFFFFC000, reset := 0xFB2, warm := false }
  else if o = 0x604 then { w1c := 0x18, warm := false }
  else if o = 0x800 then { w1c := 0x1800, warm := false }
  else if o = 0x808 then { rw := 0xFFFF, rsv := 0xFFFF0000, reset := 0x287D, warm := false }
  else if o = 0x900 then { rsv := 0xFFFFE000, warm := false }
  else if o = 0x904 then { w1c := 0x9, rsv := 0xFFFFFFF0, warm := false }
  else { warm := false }

/-- The page at 0x0001_0000: mailboxes, Bells, Ligature (R369, R376, R372). -/
def regInfoControl (o : Nat) : RegInfo :=
  if o < 0x100 then (if o % 16 = 8 then { w1c := 6 } else {})
  else if 0x200 ≤ o ∧ o < 0x280 then
    if o % 0x20 = 4 then { rw := 0xFFFFFFFF }
    else if o % 0x20 = 8 then { wo := 0x0FFFFFFF }
    else if o % 0x20 = 0x10 then { w1c := 0xFFFFFFFF }
    else {}
  else if o = 0x300 then { rw := 0xFFFF, rsv := 0xFFFF0000 }
  else {}

/-- The page at 0x0002_0000: Flue and alarms (R436). -/
def regInfoFlue (o : Nat) : RegInfo :=
  if o = 0x8 then { w1c := 0x50000, warm := false }
  else if o = 0xC then { rw := 0xFFFF, rsv := 0xFFFF0000, reset := 0x2000, warm := false }
  else if o = 0x18 then { rw := 0xFFFF, rsv := 0xFFFF0000, warm := false }
  else if o = 0x100 then { w1c := 0x7FFF, warm := false }
  else if o = 0x104 then { w1c := 0x7FFF, warm := false }
  else if o = 0x108 then { rwp := 0x7FFF, rsv := 0xFFFF8000, reset := 0x7FFF, warm := false }
  else { warm := false }

/-- The page at 0x0003_0000: Pug (R202). -/
def regInfoPug (o : Nat) : RegInfo :=
  if o < 0x100 then
    if o % 0x40 = 0 then { rwp := 0xFFFFFFC0 }
    else if o % 0x40 = 0x4 then { rwp := 0xFFFF }
    else if o % 0x40 = 0x8 then { rwp := 0xFFFFFFC0 }
    else if o % 0x40 = 0xC then { rwp := 0xFFFF }
    else if o % 0x40 = 0x10 ∨ o % 0x40 = 0x14 then { rwp := 0xFFFFFFFF }
    else if o % 0x40 = 0x18 then { rwp := 0xE7, rsv := 0xFFFFFF00 }
    else if o % 0x40 = 0x1C then { w1c := 0x1E }
    else {}
  else if o = 0x100 then { rwp := 1, rsv := 0xFFFFFFF8, reset := 1 }
  else {}

/-- The pages at 0x0004_0000: integrity, Fettler, Bisque (R364, R404, R418). -/
def regInfoInt (o : Nat) : RegInfo :=
  if 0x100 ≤ o ∧ o < 0x170 then { warm := false }
  else if o = 0 then { rw := 0x1F, rsv := 0xFFFFFFE0, reset := 0x1C }
  else if o = 0x4 then { w1c := 0xFFFFFFFF }
  else if o = 0x10 then { rwp := 0x7FF, rsv := 0xFFFFE000, w1c := 0x1800 }
  else if 0x200 ≤ o ∧ o < 0x240 then { rw := 0xFF00, rsv := 0xFFFF0000, reset := 0x1000 }
  else if 0x800 ≤ o ∧ o < 0xC00 ∧ o % 0x20 = 0xC then { w1c := 1, warm := false }
  else if o = 0x1000 then { rw := 0x3FF, rsv := 0xFFFFFC00, reset := 0x2CD }
  else if o = 0x1004 then { w1c := 0x30000 }
  else if o = 0x2000 then { rw := 0x7FF, rsv := 0xFFFFF000, reset := 0x707 }
  else if o = 0x2004 then { w1c := 0xC00000 }
  else if o < 0x100 then { warm := false } else {}

/-- The B-port pages and the ARB page at 0x0005_0000 (R289, R290). -/
def regInfoBp (o : Nat) : RegInfo :=
  if o < 0x1000 then
    if o % 0x100 = 0 then { rw := 0x1FFFFFFF, rsv := 0xE0000000, warm := false }
    else if o % 0x100 = 4 then { w1c := 0x1000078, warm := false }
    else if o % 0x100 = 0xC then { rw := 0xFF, rsv := 0xFFFFFF00, reset := 0x53 }
    else {}
  else if o = 0x1000 then { rw := 0x3FFF, rsv := 0xFFFFC000 }
  else if o = 0x1020 then { wo := 0xFFFFFFFE }
  else {}

/-- The page at 0x0006_0000: the fabric (R343). -/
def regInfoFab (o : Nat) : RegInfo :=
  if o = 0 then { rw := 0xFFFF, rsv := 0xFFFF0000, reset := 0x4E2 }
  else if o = 4 then { rw := 0xFFFF, rsv := 0xFFFF0000, reset := 0x140 }
  else if o = 8 then { rw := 0xFFFFFFFF, reset := 0x04E20271 }
  else if o = 0x40 then { rw := 0x7F, rsv := 0xFFFFFF80 }
  else if o = 0x54 then { wo := 0xFFFFFFFE }
  else {}

/-- The CPT, DPT and SPT pages from 0x0008_0000 (R359, R205, R236, R323). -/
def regInfoPort (a : Nat) : RegInfo :=
  let o := a % 0x1000
  if a < 0x98000 then
    if o = 0 then { w1c := 0x1C }
    else if o = 0x300 then { rw := 0x3F, rsv := 0xFFFFFFC0, reset := 0x11 }
    else if 0x90000 ≤ a ∧ o = 0x400 then { rw := 0x1F, rsv := 0xFFFFFFE0, reset := 0x10 }
    else if 0x90000 ≤ a ∧ o = 0x408 then { w1c := 0xF, warm := false }
    else if 0x90000 ≤ a ∧ (o = 0x40C ∨ o = 0x410) then { warm := false }
    else {}
  else if a < 0x9C000 then (if o = 0 then { w1c := 0x302 } else {})
  else {}

/-- The pages of the logical slices from 0x0010_0000 (R360, R170). -/
def regInfoSlice (o : Nat) : RegInfo :=
  if o = 0x420 then { rw := 0xF, rsv := 0xFE000000, reset := 1 } else {}

/-- What the register at offset `a` of register space holds (R344). -/
def regInfo (a : Nat) : RegInfo :=
  if a % 4 ≠ 0 then {}
  else if a < 0x10000 then regInfoGlobal a
  else if a < 0x20000 then regInfoControl (a - 0x10000)
  else if a < 0x30000 then regInfoFlue (a - 0x20000)
  else if a < 0x40000 then regInfoPug (a - 0x30000)
  else if a < 0x50000 then regInfoInt (a - 0x40000)
  else if a < 0x60000 then regInfoBp (a - 0x50000)
  else if a < 0x70000 then regInfoFab (a - 0x60000)
  else if 0x80000 ≤ a ∧ a < 0x9C000 then regInfoPort a
  else if 0x100000 ≤ a ∧ a < 0x310000 then regInfoSlice ((a - 0x100000) % 0x10000)
  else {}

/-- PRIV as the access presents it (R345). -/
def masterPriv : Master → Bool
  | .host p _ => p
  | .direct _ p _ => p
  | .lp => false
  | _ => true

/-- SECURE as the access presents it (R345). -/
def masterSec : Master → Bool
  | .host _ s => s
  | .direct _ _ s => s
  | .lp => false
  | _ => true

/-- Both attributes, as RW-P asks (R7). -/
def masterBoth (m : Master) : Bool := masterPriv m && masterSec m

/-- Owner number of a master (R371). -/
def ownerOf : Master → Nat
  | .host _ _ => 1
  | .direct d _ _ => 2 + d.val
  | .cp => 10
  | .hp => 11
  | .tp => 12
  | .lp => 13

end Sys2Proof.Machine
end

