-- ==== Sys2Proof/Machine/Ops.lean ====
section
/-! DEFINITION. The named operations over the state that every family uses: packet RAM, registers, counters, free values, and
the notifications: Bells, alarms, Flue records, the error log and its buckets, block state changes. -/

namespace Sys2Proof.Machine

/-! ### Packet RAM (R344): 256 KiB of bytes, kept as a canonical cell list; an unlisted byte reads 0. -/

/-- What a byte of packet RAM that nothing has written reads as (assumption 5). -/
def pramDefault : Byte := 0

/-- Size of packet RAM in bytes (R23). -/
def pramSize : Nat := 0x40000

/-- The byte at address a. -/
def memGet : List Host.Cell → Nat → Byte
  | [], _ => pramDefault
  | (k, b) :: t, a => if k = a then b else memGet t a

/-- Write one byte, keeping the list sorted and free of default bytes. -/
def memPut : List Host.Cell → Nat → Byte → List Host.Cell
  | [], a, b => if b = pramDefault then [] else [(a, b)]
  | (k, c) :: t, a, b =>
    if a < k then (if b = pramDefault then (k, c) :: t else (a, b) :: (k, c) :: t)
    else if k = a then (if b = pramDefault then t else (a, b) :: t)
    else (k, c) :: memPut t a b

/-- The canonical form above a floor: addresses strictly rising from `lo` on, inside packet RAM, no default byte listed. -/
def memWfFrom : Nat → List Host.Cell → Bool
  | _, [] => true
  | lo, (k, b) :: t => decide (lo ≤ k) && decide (k < pramSize) && decide (b ≠ pramDefault) && memWfFrom (k + 1) t

/-- The canonical form of packet RAM. -/
def Memory.wf (m : List Host.Cell) : Bool := memWfFrom 0 m

/-- Write consecutive bytes; bytes beyond packet RAM are dropped (no caller addresses them: R368 keeps packets inside). -/
def memPutBytes : List Host.Cell → Nat → List Byte → List Host.Cell
  | m, _, [] => m
  | m, a, b :: t => memPutBytes (if a < pramSize then memPut m a b else m) (a + 1) t

/-- Read n consecutive bytes. -/
def memGetBytes (m : List Host.Cell) (a : Nat) : Nat → List Byte
  | 0 => []
  | n + 1 => memGet m a :: memGetBytes m (a + 1) n

/-- The little-endian word at an address (R6). -/
def memWord (m : List Host.Cell) (a : Nat) : Word := wd (leVal (memGetBytes m a 4))

/-! ### Time, registers, counters, free values. -/

/-- The present TB tick as a number (R487). -/
def now (c : Core) : Nat := c.tick.toNat

/-- The software-written bits of the register at an offset (R7). -/
def regv (c : Core) (off : Nat) : Word := mget c.regs off (wd (regInfo off).reset)

/-- Store the software-written bits of a register. -/
def regSet (c : Core) (off : Nat) (v : Word) : Core := { c with regs := mput c.regs off v }

/-- A counter, by the offset of its LO word. -/
def ctrv (c : Core) (off : Nat) : Nat := mget c.ctr off 0

/-- Add to a counter of w bits that wraps. -/
def ctrAdd (c : Core) (off w n : Nat) : Core := { c with ctr := mput c.ctr off ((ctrv c off + n) % 2 ^ w) }

/-- Add to a counter of w bits that saturates. -/
def ctrSat (c : Core) (off w n : Nat) : Core := { c with ctr := mput c.ctr off (satAdd (ctrv c off) n (2 ^ w - 1)) }

/-- Set a counter or reported value. -/
def ctrSet (c : Core) (off n : Nat) : Core := { c with ctr := mput c.ctr off n }

/-- The number of the next free value, which is thereby used up (assumption 2). -/
def takeFree (c : Core) : Nat × Core := (c.free, { c with free := c.free + 1 })

/-! ### Sticky flags, Bells and alarms. -/

/-- Hardware sets a sticky flag now (R350). -/
def hwSet (c : Core) (off b : Nat) : Core := { c with flags := flagSet c.flags (now c) off b }

/-- Software writes 1 to a sticky flag now (R350). -/
def swClr (c : Core) (off b : Nat) : Core := { c with flags := flagClr c.flags (now c) off b }

/-- Whether a sticky flag reads 1. -/
def flagv (c : Core) (off b : Nat) : Bool := flagGet c.flags off b

/-- Ring bit b of host bank i (R373). -/
def ring (c : Core) (i b : Nat) : Core := hwSet c (bellBase i) b

/-- The bank that BELL_ROUTE names for bit b, 20 to 27 (R374, R376). -/
def routedBank (c : Core) (b : Nat) : Nat := fld (regv c 0x10300) (2 * (b - 20) + 1) (2 * (b - 20))

/-- Ring a routed bit (R374). -/
def ringRouted (c : Core) (b : Nat) : Core := ring c (routedBank c b) b

/-- Ring the Bell of a processor: 0 CP, 1 HP, 2 TP, 3 LP. Its bit allocation belongs to firmware (R375). -/
def ringProc (c : Core) (p b : Nat) : Core := hwSet c (0x1000000 + 0x20 * p) b

/-- Set a sticky port flag, which rings PORT (R374 bit 24). -/
def portFlag (c : Core) (off b : Nat) : Core := ringRouted (hwSet c off b) 24

/-- Latch alarm b (R435): the first one while none is latched is recorded with its tick. -/
def alarm (c : Core) (b : Nat) : Core :=
  let c := if flagWord c.flags 0x20100 = 0 then
      { c with alarmFirst := { bit := b, valid := true, tick := c.tick } } else c
  ringRouted (hwSet c 0x20100 b) 23

/-- ALERT_N is driven low while an enabled alarm is latched (R435). -/
def alertLow (c : Core) : Bool := decide (flagWord c.flags 0x20100 &&& (regv c 0x20108).toNat ≠ 0)

/-- NDR_IRQ[i] (R373). -/
def irq (c : Core) (i : Nat) : Bool :=
  decide (flagWord c.flags (bellBase i) &&& (regv c (bellBase i + 4)).toNat ≠ 0) && (regv c 0x14).getLsbD i

/-! ### The Flue's producer (R423 to R433). -/

/-- Words in one bank (R423). -/
def bankWords : Nat := 16384

/-- Committed words that have not been read, across both banks (R425). -/
def flueOcc (f : Flue) : Nat :=
  (f.old.words.length - f.old.read) + (match f.new with | some n => n.words.length - n.read | none => 0)

/-- The reader moves on to the newer bank when it has read the older one up to its end mark (R424). -/
def flueTurn (f : Flue) : Flue :=
  match f.new with
  | some n => if f.old.read = f.old.words.length then { f with old := n, new := none, rb := !f.rb } else f
  | none => f

/-- The words of a record, the first one marked FIRST and, where records are missing before it, GAP (R426, R433). -/
def flueWords (gap : Bool) : List Word → List FWord
  | [] => []
  | w :: t => { w := w, first := true, gap := gap } :: t.map (fun x => { w := x, first := false })

/-- Commit a record that the producer holds, or find that a bank must be taken (R424, R432, R433). -/
def flueCommit (f : Flue) (r : List Word) : Flue :=
  if f.taking then
    if f.staging.length < 32 then { f with staging := f.staging ++ [r] }
    else { f with lost := f.lost + 1, gapNext := true }
  else
    let fw := flueWords f.gapNext r
    match f.new with
    | none =>
      if f.old.words.length + r.length ≤ bankWords then
        { f with old := { f.old with words := f.old.words ++ fw }, gapNext := false }
      else flueTurn { f with new := some { words := fw }, gapNext := false }
    | some n =>
      if n.words.length + r.length ≤ bankWords then
        { f with new := some { n with words := n.words ++ fw }, gapNext := false }
      else { f with taking := true, staging := [r] }

/-- The ring of R431: bit 22 when OCC passes LEVEL upward. -/
def flueRing (before : Core) (c : Core) : Core :=
  let lvl := fld (regv c 0x2000C) 15 0
  if lvl ≠ 0 ∧ flueOcc before.flue < lvl ∧ lvl ≤ flueOcc c.flue then ringRouted c 22 else c

/-- Word 0 of a record (R426). -/
def flueHead (npar code src seq : Nat) (dom al : Bool) : Word :=
  wd (npar % 16 + 16 * (code % 4096) + 2 ^ 16 * (src % 16) + 2 ^ 20 * b2n dom + 2 ^ 21 * b2n al + 2 ^ 22 * (seq % 1024))

/-- A record of this instance that the producer accepts now (R426). -/
def flueRecord (c : Core) (code : Nat) (par : List Word) (al : Bool) : List Word :=
  flueHead par.length code c.dom.inst c.flue.seq false al :: loW (now c) :: hiW (now c) :: par

/-- The copy of a marked record that a Drone funnels, with domain time at the source (R434). -/
def funnelRecord (c : Core) (code : Nat) (par : List Word) (al : Bool) : List Word :=
  flueHead par.length code c.dom.inst c.flue.seq true al :: loW c.dom.time.toNat :: hiW c.dom.time.toNat :: par

/-- The producer accepts an event: it uses a SEQ value, is committed, and is funnelled where its class is marked (R426, R434). -/
def flueAccept (c : Core) (code : Nat) (par : List Word) (al : Bool) : Core :=
  let r := flueRecord c code par al
  let fr := funnelRecord c code par al
  let c' := { c with flue := { flueCommit c.flue r with seq := (c.flue.seq + 1) % 1024 } }
  let c' := flueRing c c'
  if !c.dom.role && (regv c 0x20018).getLsbD (code / 256 % 16) then
    { c' with dom := { c'.dom with funnelQ := c'.dom.funnelQ ++ [fr] } }
  else c'

/-- FLIP_MASK is armed for a category (R364). -/
def flipArmed (c : Core) (cat : Nat) : Bool :=
  (regv c 0x40010).getLsbD 0 && decide (fld (regv c 0x40010) 4 1 = cat)

/-- The flip of R364 is made: ARM clears and FIRED is set. -/
def flipFire (c : Core) : Core :=
  hwSet (regSet c 0x40010 (regv c 0x40010 &&& ~~~ (1 : Word))) 0x40010 11

/-- The byte whose parity bit is inverted in a unit of n bytes (R364). -/
def flipByte (c : Core) (n : Nat) : Nat := fld (regv c 0x40010) 10 5 % n

/-- Where and how an array error was found (R361, R363). -/
structure ErrAt where
  cat : Nat
  kind : Nat
  unit : Nat := 0x7F
  way : Nat := 0
  set : Nat := 0
  addr : Option Nat := none

/-- Offer an error to the log: the lowest free entry, or DROPPED (R363). -/
def logError (c : Core) (e : ErrAt) : Core :=
  match firstFree 32 (fun i => (mget c.log i {}).valid) with
  | some i =>
    { c with
      log := mput c.log i { valid := true, addr := e.addr.getD 0, avalid := e.addr.isSome, cat := e.cat, kind := e.kind,
                            unit := e.unit, way := e.way, set := e.set, seq := c.logSeq, tick := c.tick }
      logSeq := (c.logSeq + 1) % 256 }
  | none => ctrSat c 0x40008 16 1

/-- Raise the category's bucket (R362). -/
def bucketAdd (c : Core) (cat : Nat) : Core :=
  let th := fld (regv c (0x40200 + 4 * cat)) 15 8
  let th := if th = 0 then 1 else th
  let l := mget c.bkt cat 0 + 1
  if th ≤ l then ringRouted (hwSet { c with bkt := mput c.bkt cat 0 } 0x40004 cat) 21
  else { c with bkt := mput c.bkt cat l }

/-- Count, log and bucket an array error without its Flue record. -/
def countError (c : Core) (e : ErrAt) : Core :=
  bucketAdd (logError (ctrAdd c (0x40100 + 8 * e.cat) 48 1) e) e.cat

/-- A Flue event (R427). A flip armed for category 10 strikes the record, which then vanishes (R428). -/
def event (c : Core) (code : Nat) (par : List Word) (al : Bool := false) : Core :=
  if flipArmed c 10 then
    let c := flipFire c
    let c := { c with flue := { c.flue with seq := (c.flue.seq + 1) % 1024, rewound := satAdd c.flue.rewound 1 0xFFFF } }
    flueAccept (countError c { cat := 10, kind := 3 }) 0x301 [wd (10 + 16 * 3 + 128 * 0x7F), 0, 0] false
  else flueAccept c code par al

/-- Sets that Fettler scrubs at once after an error there: line cache and filter by physical slice, proxy filter by bank (R404). -/
def urgentSet (c : Core) (e : ErrAt) : Core :=
  let x := (e.cat, e.unit - (if e.cat = 3 then 106 else 33), e.set)
  if 3 < e.cat ∨ c.urgent.contains x then c else { c with urgent := c.urgent ++ [x] }

/-- An array error is found: counted, offered to log and bucket, written to the Flue, and its set scrubbed at once (R361, R398, R404). -/
def arrayError (c : Core) (e : ErrAt) : Core :=
  let c := urgentSet c e
  event (countError c e) 0x301 [wd (e.cat + 16 * e.kind + 128 * e.unit), loW (e.addr.getD 0), hiW (e.addr.getD 0)]

/-- A flit is injected: a flip armed for category 6 strikes its header, which the downstream router finds and has resent (R331, R364,
R398). -/
def flipHop (c : Core) : Core := if flipArmed c 6 then arrayError (flipFire c) { cat := 6, kind := 0 } else c

/-- An entry of a queue is written: a flip armed for category 13 strikes one of its two copies, and the other is used (R364, R401). -/
def flipQueue (c : Core) (unit : Nat) : Core :=
  if flipArmed c 13 then arrayError (flipFire c) { cat := 13, kind := 2, unit := unit } else c

/-- An alarm with the event that reports it: the record's ALARM bit is set (R426). -/
def alarmEvent (c : Core) (b code : Nat) (par : List Word) : Core := event (alarm c b) code par true

/-- NDR_STATE changes (R384): PREV, CHG, bit 25 and the event. -/
def setState (c : Core) (s : BState) : Core :=
  let old := c.st.cur
  let c := { c with st := { cur := s, prev := old } }
  event (ringRouted (hwSet c 0x10 8) 25) 0x802 [wd old.ctorIdx, wd s.ctorIdx]

/-- A refused access to an RW-P field (R8, R347), or of LP outside its window (R345). -/
def refusedAccess (c : Core) (m : Master) (off : Nat) (write : Bool) : Core :=
  event c 0x101 [wd off, wd (ownerOf m + 16 * b2n (masterPriv m) + 32 * b2n (masterSec m) + 64 * b2n write)]

/-- An ignored write, with its reason (R427 code 0x102). -/
def writeIgnored (c : Core) (owner off why : Nat) : Core := event c 0x102 [wd off, wd (owner + 256 * why)]

end Sys2Proof.Machine
end

