-- ==== Sys2Proof/Machine/Operands.lean ====
section
/-! DEFINITION. The flit (R32 to R36, R44, R51): the fields of a sampled flit, the encoding of a driven one, and the message that a
class and an opcode name. -/

namespace Sys2Proof.Machine

/-- Header bits [hi:lo] of a flit as a number (R33). -/
def hfld (f : Flit) (hi lo : Nat) : Nat := (f.hdr.toNat / 2 ^ lo) % 2 ^ (hi + 1 - lo)

/-- CLASS (R33). -/
def fClass (f : Flit) : Nat := hfld f 2 0
/-- OPC (R33). -/
def fOpc (f : Flit) : Nat := hfld f 7 3
/-- TAG (R33). -/
def fTag (f : Flit) : Nat := hfld f 19 8
/-- RID (R33). -/
def fRid (f : Flit) : Nat := hfld f 26 20
/-- STAT (R33). -/
def fStat (f : Flit) : Nat := hfld f 30 27
/-- POISON (R33). -/
def fPoison (f : Flit) : Bool := f.hdr.getLsbD 31
/-- LADDR (R33, R37). -/
def fLine (f : Flit) : Nat := hfld f 77 32
/-- PRIV (R41). -/
def fPriv (f : Flit) : Bool := f.hdr.getLsbD 78
/-- SECURE (R41). -/
def fSecure (f : Flit) : Bool := f.hdr.getLsbD 79
/-- SHINT (R43). -/
def fShint (f : Flit) : Nat := hfld f 83 80
/-- DV (R33). -/
def fDv (f : Flit) : Bool := f.hdr.getLsbD 84
/-- GST (R38). -/
def fGst (f : Flit) : Gst := match hfld f 86 85 with | 0 => .i | 1 => .s | 2 => .e | _ => .m
/-- DIRTY (R38). -/
def fDirty (f : Flit) : Bool := f.hdr.getLsbD 87
/-- NOPF (R43). -/
def fNopf (f : Flit) : Bool := f.hdr.getLsbD 89
/-- REG (R42). -/
def fReg (f : Flit) : Bool := f.hdr.getLsbD 91
/-- SEQ (R36). -/
def fSeq (f : Flit) : Nat := hfld f 97 92
/-- LAST (R36). -/
def fLast (f : Flit) : Bool := f.hdr.getLsbD 98
/-- BE (R35). -/
def fBe (f : Flit) : BEn := f.hdr.extractLsb' 104 64
/-- RINFO.CODE of BE_STATUS (R35, R54). -/
def fCode (f : Flit) : Nat := hfld f 111 104
/-- RINFO.VALUE of BE_STATUS (R35, R54). -/
def fValue (f : Flit) : Nat := hfld f 143 112
/-- HPAR (R44). -/
def fHpar (f : Flit) : Nat := hfld f 188 168

/-- Header byte i passes its parity check (R44). -/
def hdrByteOk (f : Flit) (i : Nat) : Bool :=
  (f.hdr.getLsbD (168 + i)) == oddPar (BitVec.ofNat 8 (f.hdr.toNat / 2 ^ (8 * i)))

/-- Byte 0, which holds CLASS and OPC, passes (R46). -/
def hdr0Ok (f : Flit) : Bool := hdrByteOk f 0

/-- Every header byte passes (R44). -/
def hdrOk (f : Flit) : Bool := (List.range 21).all (hdrByteOk f)

/-- The CLASS and OPC of a message (R51). -/
def msgCode : Msg → Nat × Nat
  | .rdShared => (0, 0x00) | .rdUnique => (0, 0x01) | .rdOnce => (0, 0x02) | .cleanUnique => (0, 0x03)
  | .wrFull => (0, 0x04) | .wrPartial => (0, 0x05) | .persist => (0, 0x06) | .load => (0, 0x08) | .store => (0, 0x09)
  | .loadRes => (0, 0x0A) | .storeCond => (0, 0x0B) | .fence => (0, 0x0C) | .fenceP => (0, 0x0D) | .beRead => (0, 0x10)
  | .wbDirty => (4, 0x00) | .evictClean => (4, 0x01) | .beWrite => (4, 0x10) | .beAbort => (4, 0x11)
  | .snpShared => (1, 0x00) | .snpUnique => (1, 0x01) | .snpFwdShared => (1, 0x02) | .snpFwdUnique => (1, 0x03)
  | .snpInval => (1, 0x04)
  | .cmp => (2, 0x00) | .snpResp => (2, 0x02) | .fwdDone => (2, 0x04) | .ack => (2, 0x05) | .beDurable => (2, 0x10)
  | .beStatus => (2, 0x11)
  | .cmpData => (3, 0x00) | .snpRespData => (3, 0x01) | .beData => (3, 0x10)
  | .beHealth => (5, 0x00) | .mgtPkt => (5, 0x01)

/-- The message of a CLASS and OPC, none where the opcode is unassigned (R51). -/
def codeMsg (cls opc : Nat) : Option Msg :=
  [Msg.rdShared, .rdUnique, .rdOnce, .cleanUnique, .wrFull, .wrPartial, .persist, .load, .store, .loadRes, .storeCond,
   .fence, .fenceP, .beRead, .wbDirty, .evictClean, .beWrite, .beAbort, .snpShared, .snpUnique, .snpFwdShared,
   .snpFwdUnique, .snpInval, .cmp, .snpResp, .fwdDone, .ack, .beDurable, .beStatus, .cmpData, .snpRespData, .beData,
   .beHealth, .mgtPkt].find? (fun m => msgCode m == (cls, opc))

/-- The message of a flit. -/
def fMsg (f : Flit) : Option Msg := codeMsg (fClass f) (fOpc f)

/-- The STAT code (R60). -/
def statCode : Stat → Nat
  | .ok => 0 | .okPoison => 1 | .errDecode => 2 | .errTimeout => 3 | .errExhausted => 4 | .errProtect => 5 | .errSpan => 7

/-- The status of a STAT field, none for a reserved value (R60). -/
def codeStat : Nat → Option Stat
  | 0 => some .ok | 1 => some .okPoison | 2 => some .errDecode | 3 => some .errTimeout | 4 => some .errExhausted
  | 5 => some .errProtect | 7 => some .errSpan | _ => none

/-- An error completion (R60): every status but OK and OK_POISON. -/
def Stat.isErr : Stat → Bool
  | .ok => false
  | .okPoison => false
  | _ => true

/-- The GST code (R33). -/
def gstCode : Gst → Nat
  | .i => 0 | .s => 1 | .e => 2 | .m => 3

/-- Header bits [167:0] of a driven flit (R33, R34). -/
def hdrBits (f : OutFlit) : Nat :=
  (msgCode f.msg).1 + 2 ^ 3 * (msgCode f.msg).2 + 2 ^ 8 * (f.tag % 2 ^ 12) + 2 ^ 20 * (f.rid % 2 ^ 7)
  + 2 ^ 27 * statCode f.stat + 2 ^ 31 * b2n f.poison + 2 ^ 32 * (f.line % 2 ^ 46) + 2 ^ 84 * b2n f.dv
  + 2 ^ 85 * gstCode f.gst + 2 ^ 87 * b2n f.dirty + 2 ^ 88 * b2n f.res + 2 ^ 90 * b2n f.ackreq + 2 ^ 91 * b2n f.reg
  + 2 ^ 92 * (f.seq % 2 ^ 6) + 2 ^ 98 * b2n f.last + 2 ^ 104 * f.be.toNat

/-- A driven flit as bits, with its header parity (R32, R33, R44). -/
def encFlit (f : OutFlit) : Flit :=
  let h := hdrBits f
  { hdr := BitVec.ofNat 192 (h + 2 ^ 168 * parBits h 21), pay := f.data }

/-- A flit read back field by field, none where its opcode or STAT is not assigned. -/
def decFlit (f : Flit) : Option OutFlit :=
  match fMsg f, codeStat (fStat f) with
  | some m, some s =>
    some { msg := m, tag := fTag f, rid := fRid f, stat := s, poison := fPoison f, line := fLine f, gst := fGst f,
           dirty := fDirty f, res := f.hdr.getLsbD 88, ackreq := f.hdr.getLsbD 90, reg := fReg f, dv := fDv f, be := fBe f, seq := fSeq f,
           last := fLast f, data := f.pay }
  | _, _ => none

/-- The flit with POISON = 1, its header parity following (R45, R400). -/
def poisonFlit (f : Flit) : Flit :=
  if fPoison f then f else { f with hdr := f.hdr ^^^ BitVec.ofNat 192 (2 ^ 31 + 2 ^ 171) }

/-- The message carries 64 bytes of data (R51). -/
def msgData : Msg → Bool
  | .wrFull | .wrPartial | .store | .storeCond | .wbDirty | .beWrite | .cmpData | .snpRespData | .beData | .beHealth
  | .mgtPkt => true
  | _ => false

/-- FRID and FTAG as the FWD field of a snoop carries them (R35). -/
def fwdField (frid ftag : Nat) : BitVec 64 := BitVec.ofNat 64 (frid % 2 ^ 7 + 2 ^ 7 * (ftag % 2 ^ 12))

/-- All byte enables (R39). -/
def beAll : BEn := BitVec.allOnes 64

/-- Byte i of a flit's payload as a number. -/
def payByte (f : Flit) (i : Nat) : Byte := lineByte f.pay i

/-- The 32-bit word j of a payload. -/
def payWord (l : Line) (j : Nat) : Word := l.extractLsb' (32 * j) 32

end Sys2Proof.Machine
end

