-- ==== Sys2Proof/Machine/Lines.lean ====
section
/-! DEFINITION. Where a line lives: local address, region-table decode, slice hash, line-cache and filter indices, B-port windows,
domain membership, endpoint numbers (R37, R142, R162, R172, R173, R189, R262, R292, R326, R357). -/

namespace Sys2Proof.Machine

/-- The C-, D- and S-ports are in service: from READY on, and until a flush or a warm reset ends the transactions (R72, R243, R253,
R258). -/
def portsUp (c : Core) : Bool :=
  !c.ending && (c.st.cur == .ready || c.st.cur == .degraded || c.st.cur == .quiesced || c.st.cur == .service)

/-- Endpoint IDs (R326). -/
def epC (p : Nat) : Nat := 66 + p
/-- D-port endpoint. -/
def epD (d : Nat) : Nat := 82 + d
/-- B-port endpoint. -/
def epB (b : Nat) : Nat := 90 + b
/-- Span gateway endpoint. -/
def epG (k : Nat) : Nat := 106 + k
/-- Pug's endpoint. -/
def epPug : Nat := 111

/-- Instance of a domain line address (R37). -/
def instOf (line : Nat) : Nat := line / 2 ^ 42 % 16

/-- Local line address: la[47:6]. -/
def localOf (line : Nat) : Nat := line % 2 ^ 42

/-- Bit k of the byte address of a local line. -/
def laBit (line k : Nat) : Bool := (localOf line).testBit (k - 6)

/-- The line is homed in this instance (R292). -/
def isLocal (c : Core) (line : Nat) : Bool := instOf line == c.dom.inst

/-- An instance is a member of the domain; the own bit is always set (R292). -/
def isMember (c : Core) (i : Nat) : Bool := i == c.dom.inst || c.dom.members.getLsbD i

/-- An instance is leaving (R321). -/
def isLeaving (c : Core) (i : Nat) : Bool := c.dom.leaving.getLsbD i

/-- Committed entry r of the region table. -/
def rgnCur (c : Core) (r : Nat) : RgnWords := (mget c.rgn r {}).cur

/-- Entry r covers a local line (R357). -/
def rgnCovers (w : RgnWords) (line : Nat) : Bool :=
  decide (w.base.toNat ≤ localOf line / 1024) && decide (localOf line / 1024 ≤ w.limit.toNat)

/-- The region-table entry that decides a local line (R357). -/
def rgnIndex (c : Core) (line : Nat) : Option Nat :=
  (List.range 16).find? (fun r => rgnCovers (rgnCur c r) line)

/-- TYPE of an entry: 0 HOLE, 1 NORMAL, 2 DEVICE, 3 WARE. -/
def rgnType (w : RgnWords) : Nat := fld w.attr 1 0
/-- MODE of an entry: STRICT. -/
def rgnStrict (w : RgnWords) : Bool := w.attr.getLsbD 2
/-- KEY of an entry. -/
def rgnKey (w : RgnWords) : Nat := fld w.attr 7 4
/-- METER of an entry. -/
def rgnMeter (w : RgnWords) : Nat := fld w.attr 11 8

/-- The lowest-numbered entry of type WARE (R189). -/
def wareEntry (c : Core) : Option Nat :=
  (List.range 16).find? (fun r => rgnType (rgnCur c r) == 3)

/-- The type that governs a local line: an entry of type WARE other than the mapping one decodes as HOLE (R189, R357). -/
def lineType (c : Core) (line : Nat) : Nat :=
  match rgnIndex c line with
  | none => 0
  | some r =>
    let ty := rgnType (rgnCur c r)
    if ty = 3 ∧ wareEntry c ≠ some r then 0 else ty

/-- Offset, in lines, of a Ware line in the window (R189). -/
def wareOff (c : Core) (line : Nat) : Nat :=
  match wareEntry c with
  | some r => localOf line - (rgnCur c r).base.toNat * 1024
  | none => 0

/-- The Ware line lies within the window's present capacity of W × 4 MiB (R189). -/
def wareIn (c : Core) (line : Nat) : Bool := decide (wareOff c line < c.arr.wcap * 65536)

/-- The slice hash of R172. -/
def hashSlice (line : Nat) : Nat :=
  let ps := (List.range 48).filter (fun p => decide (7 ≤ p) && p != 24 && laBit line p)
  ofBits ((List.range 5).filter (fun r =>
    (ps.filter (fun p => (p - 2) % 5 == r)).length % 2
      != (ps.filter (fun p => decide (22 ≤ p) && p % 5 == r)).length % 2))

/-- The logical slice that homes a local line (R172, R189). -/
def sliceOf (c : Core) (line : Nat) : Nat :=
  if lineType c line = 3 then wareOff c line % 32 else hashSlice line

/-- Line-cache set index (R173): cs[0] = la[6], cs[10:1] = la[22:13] xor la[32:23]. -/
def lcSet (line : Nat) : Nat :=
  let l := localOf line
  l % 2 + 2 * ((l / 2 ^ 7 % 1024) ^^^ (l / 2 ^ 17 % 1024))

/-- Filter set index (R142): la[23:12] xor la[37:26]. -/
def sfSet (line : Nat) : Nat :=
  let l := localOf line
  (l / 2 ^ 6 % 4096) ^^^ (l / 2 ^ 20 % 4096)

/-- Filter tag la[43:24] and low tag la[11:6] (R142). -/
def sfTag (line : Nat) : Nat := localOf line / 2 ^ 18 % 2 ^ 20
/-- Low tag. -/
def sfLtag (line : Nat) : Nat := localOf line % 64

/-- The local line that set, tag and low tag give back (R142). -/
def sfLine (si tag ltag : Nat) : Nat := tag * 2 ^ 18 + ((si ^^^ (tag / 4 % 4096)) * 64) + ltag

/-- Line lies at or above 16 TiB (R141). -/
def above16T (line : Nat) : Bool := decide (2 ^ 38 ≤ localOf line)

/-- Proxy bank, set and tag of a domain line (R162). -/
def pfIndex (line : Nat) : Nat := (line % 2 ^ 16) ^^^ (line / 2 ^ 16 % 2 ^ 16)
/-- Bank, which is also the gateway (R162). -/
def pfBank (line : Nat) : Nat := pfIndex line % 4
/-- Proxy set. -/
def pfSet (line : Nat) : Nat := pfIndex line / 4
/-- Proxy tag da[51:22]. -/
def pfTag (line : Nat) : Nat := line / 2 ^ 16 % 2 ^ 30

/-- BASE and SIZE of B-port b (R262). -/
def bpBase (c : Core) (b : Nat) : Nat := fld (regv c (0x50000 + 0x100 * b)) 17 0
/-- SIZE, values above 1,024 acting as 1,024 (R262). -/
def bpSize (c : Core) (b : Nat) : Nat := min (fld (regv c (0x50000 + 0x100 * b)) 28 18) 1024

/-- The B-port that serves a local line (R262). -/
def bportOf (c : Core) (line : Nat) : Option Nat :=
  let g := localOf line / 2 ^ 24
  (List.range 16).find? (fun b => decide (bpBase c b ≤ g) && decide (g < bpBase c b + bpSize c b))

/-- Physical slice that bears logical slice s (R360). -/
def physOf (c : Core) (s : Nat) : Nat := mget c.bearer s s

/-- Role of logical slice s (R360). -/
def roleOf (c : Core) (s : Nat) : Role := mget c.role s (if s = 32 then .spare else .active)

/-- Logical partner (R16). -/
def partnerOf (s : Nat) : Nat := s ^^^ 1

/-- Only one copy is kept for slice s: it or its partner is served by the other's physical slice (R30, R160). -/
def oneCopy (c : Core) (s : Nat) : Bool := physOf c s == physOf c (partnerOf s)

/-- The slice lies in a cut-over window, or is being taken over: the Bourdon covers its lines (R130). -/
def sliceCovered (c : Core) (s : Nat) : Bool := roleOf c s == .cutover || c.fabric.taken.contains s

/-- A slice that is to be replaced first finishes what has passed LOOKUP there (R411). -/
def sliceStops (c : Core) (s : Nat) : Bool := roleOf c s == .cutover && c.fabric.taken.contains s

/-- Sharer index of a requester that is an agent or a span gateway (R86). -/
def sharerIdx (rid : Nat) : Option Nat :=
  if rid < 64 then some rid else if 80 ≤ rid ∧ rid < 96 then some (64 + (rid - 80)) else none

/-- Content of key slot k for new traffic: a slot that is to become EMPTY refuses at once (R276, R277, R454). -/
def slotNow (c : Core) (k : Nat) : KeySlot :=
  if mfind? c.keyNext k = some .empty then .empty else mget c.keys k .empty

/-- Key slot state for a local line (R276). -/
def keyOf (c : Core) (line : Nat) : KeySlot :=
  match rgnIndex c line with
  | some r => slotNow c (rgnKey (rgnCur c r))
  | none => .empty

/-- The line's key slot is EMPTY (R276). -/
def keyEmpty (c : Core) (line : Nat) : Bool := keyOf c line == .empty

/-- Write-refused flag of a line's region (R99). -/
def wrefOf (c : Core) (line : Nat) : Bool :=
  match rgnIndex c line with
  | some r => (mget c.rgn r {}).wref
  | none => false

/-- The home of a line is reachable in the domain: a member, and no leave between it and this instance (R61, R292, R321). -/
def instOk (c : Core) (line : Nat) : Bool :=
  isLocal c line || (isMember c (instOf line) && !isLeaving c (instOf line) && !isLeaving c c.dom.inst)

/-- The address of a request has no target: the list of ERR_DECODE in R61, as far as this instance can see it. -/
def noTarget (c : Core) (line : Nat) : Bool :=
  !instOk c line || (isLocal c line && (lineType c line == 0 || (lineType c line == 3 && !wareIn c line)))

/-- C-port p of a local agent. -/
def portOfAgent (a : Nat) : Nat := a / 4

/-- The port is in the reset sequence or stopped (R72). -/
def cportShut (c : Core) (p : Nat) : Bool := (mget c.cport p {}).closed

/-- Ticks of a timeout field of 16-tick units; 0 acts as 1 (R335). -/
def tmoTicks (v : Nat) : Nat := (if v = 0 then 1 else v) * 16

/-- REQ_TMO in TB ticks. -/
def reqTmo (c : Core) : Nat := tmoTicks (fld (regv c 0x60000) 15 0)
/-- SNP_TMO in TB ticks. -/
def snpTmo (c : Core) : Nat := tmoTicks (fld (regv c 0x60004) 15 0)
/-- Effective BE read limit of a port: the greater of BE_RD × 16 and twice BP_BOUND (R335). -/
def beRdTmo (c : Core) (b : Nat) : Nat :=
  max (tmoTicks (fld (regv c 0x60008) 15 0)) (2 * (mget c.bport b {}).bound.toNat)
/-- BE_WR in TB ticks. -/
def beWrTmo (c : Core) : Nat := tmoTicks (fld (regv c 0x60008) 31 16)

end Sys2Proof.Machine
end

