-- ==== Sys2Proof/Machine/Gate.lean ====
section
/-! DEFINITION. Driving the terminals: the outbound boundary FIFOs of C-, D- and B-ports, and the span link layer's sending side with
its routes and sessions (R45, R63, R301 to R307). -/

namespace Sys2Proof.Machine

/-- C-port p. -/
def cpGet (c : Core) (p : Nat) : CPort := mget c.cport p {}
/-- Change C-port p. -/
def cpMod (c : Core) (p : Nat) (f : CPort → CPort) : Core := { c with cport := mmod c.cport p {} f }
/-- D-port d. -/
def dpGet (c : Core) (d : Nat) : DPort := mget c.dport d {}
/-- Change D-port d. -/
def dpMod (c : Core) (d : Nat) (f : DPort → DPort) : Core := { c with dport := mmod c.dport d {} f }
/-- B-port b. -/
def bpGet (c : Core) (b : Nat) : BPort := mget c.bport b {}
/-- Change B-port b. -/
def bpMod (c : Core) (b : Nat) (f : BPort → BPort) : Core := { c with bport := mmod c.bport b {} f }
/-- S-port n. -/
def spGet (c : Core) (n : Nat) : SPort := mget c.sport n {}
/-- Change S-port n. -/
def spMod (c : Core) (n : Nat) (f : SPort → SPort) : Core := { c with sport := mmod c.sport n {} f }
/-- Span gateway k. -/
def gwGet (c : Core) (k : Nat) : Gateway := mget c.gw k {}
/-- Change span gateway k. -/
def gwMod (c : Core) (k : Nat) (f : Gateway → Gateway) : Core := { c with gw := mmod c.gw k {} f }

/-- Class number of a message (R47). -/
def msgCls (m : Msg) : Nat := (msgCode m).1

/-- Credits of class k (R63). -/
def credit (l : List Nat) (k : Nat) : Nat := l.getD k 0
/-- Take one credit of class k. -/
def spend (l : List Nat) (k : Nat) : List Nat := modAt l k (fun n => n - 1)
/-- Add n credits of class k. -/
def earn (l : List Nat) (k n : Nat) : List Nat := modAt l k (fun m => m + n)

/-- The flits of an outbound FIFO that leave now: per class, in order, while a credit of the class is held (R63). Answers the
flits driven, those that stay, and the credits left. -/
def drainQ : List OutFlit → List Nat → List OutFlit → List OutFlit → List OutFlit × List OutFlit × List Nat
  | [], cr, sent, kept => (sent.reverse, kept.reverse, cr)
  | f :: t, cr, sent, kept =>
    let k := msgCls f.msg
    if credit cr k = 0 ∨ kept.any (fun g => msgCls g.msg == k) then drainQ t cr sent (f :: kept)
    else drainQ t (spend cr k) (f :: sent) kept

/-- A flit as the outbound boundary drives it: an error completion carries a zero payload and no poison, and the payload of a flit
with DV = 0 is zero (R45, R60). -/
def driveForm (f : OutFlit) : OutFlit :=
  if f.stat.isErr then { f with data := 0, poison := false }
  else if f.dv then f else { f with data := 0 }

/-- The initiator number of an endpoint for the statistics of R342, if it is one. -/
def initOf (ep : Nat) : Option Nat :=
  if 66 ≤ ep ∧ ep < 90 then some (ep - 66) else if 106 ≤ ep ∧ ep < 110 then some (24 + ep - 106)
  else if ep = 111 then some 28 else if 113 ≤ ep ∧ ep < 116 then some (29 + ep - 113) else none

/-- Keys of the flit counters of an initiator, injected and ejected (R342), in `Core.hist`. -/
def injKey (i : Nat) : Nat := 100000 + i
/-- Ejected. -/
def ejKey (i : Nat) : Nat := 100100 + i

/-- Count a flit injected by an endpoint (R342). -/
def countInj (c : Core) (ep : Nat) : Core :=
  match initOf ep with
  | some i => { c with hist := mput c.hist (injKey i) ((mget c.hist (injKey i) 0 + 1) % 2 ^ 48) }
  | none => c

/-- Count a flit ejected at an endpoint (R342). -/
def countEj (c : Core) (ep : Nat) : Core :=
  match initOf ep with
  | some i => { c with hist := mput c.hist (ejKey i) ((mget c.hist (ejKey i) 0 + 1) % 2 ^ 48) }
  | none => c

/-- The latency bucket of L ticks (R342). -/
def bucketOf (l : Nat) : Nat := if l = 0 then 0 else if 16384 ≤ l then 15 else Nat.log2 l + 1

/-- Count the latency of a request of kind k from an endpoint (R342). -/
def countLat (c : Core) (ep kind l : Nat) : Core :=
  match initOf ep with
  | some i =>
    let key := (i * 4 + kind) * 16 + bucketOf l
    { c with hist := mput c.hist key (satAdd (mget c.hist key 0) 1 (2 ^ 32 - 1)) }
  | none => c

/-- The request kind of the statistics: 0 reads, 1 writes, 2 PERSIST; others are not counted (R342). -/
def opKind : Op → Option Nat
  | .rdShared | .rdUnique | .rdOnce | .load | .loadRes => some 0
  | .wrFull | .wrPartial | .store | .storeCond | .wbDirty | .evictClean => some 1
  | .persist => some 2
  | .pug => some 1
  | _ => none

/-- Count the latency of a request accepted at tick t0 (R342). -/
def countOp (c : Core) (ep : Nat) (o : Op) (t0 : Nat) : Core :=
  match opKind o with
  | some k => countLat c ep k (now c - t0)
  | none => c

/-! ### The boundary FIFOs (R45, R63 to R70, R364, R385, R400). -/

/-- Depths of the inbound boundary FIFOs of a C-port, by class (R64). -/
def depthC : List Nat := [32, 0, 32, 32, 32, 0]
/-- Of a D-port. -/
def depthD : List Nat := [32, 0, 0, 0, 0, 0]
/-- Of a B-port. -/
def depthB : List Nat := [0, 0, 32, 32, 0, 4]

/-- The requester of a flit on C-port p (R55). -/
def cRid (p : Nat) (f : Flit) : Nat := 4 * p + fRid f % 4

/-- A REQ or WB flit that waits in an inbound boundary FIFO. -/
def waitsReq (g : Flit × Nat) : Bool := fClass g.1 == 0 || fClass g.1 == 4

/-- A write-back of an agent for a line that waits in its port's inbound boundary FIFO. -/
def waitingWb (agent line : Nat) (g : Flit × Nat) : Bool :=
  fClass g.1 == 4 && cRid (portOfAgent agent) g.1 == agent && fLine g.1 == line

/-- No inbound REQ credits are granted: QUIESCE has stopped them, or the state is QUIESCED or SERVICE (R385, R389). -/
def reqHeld (c : Core) : Bool := c.reqStop || c.st.cur == .quiesced || c.st.cur == .service

/-- Return n inbound credits of class k at an endpoint (R63). -/
def crdDrive (c : Core) (ep k n : Nat) : Core := if n = 0 then c else { c with wire := c.wire ++ [.credit ep k n] }

/-- Return the initial credits of a port that opens (R72 step 7). -/
def crdOpen (c : Core) (ep : Nat) (l : List Nat) : Core := (List.range 6).foldl (fun c k => crdDrive c ep k (l.getD k 0)) c

/-- The credits that a port grants as it opens, and the REQ credits that it keeps back (R64, R385). -/
def firstCredits (c : Core) (l : List Nat) : List Nat × Nat := if reqHeld c then (modAt l 0 (fun _ => 0), l.getD 0 0) else (l, 0)

/-- A C-port's inbound entry of class k is freed: its credit is returned, or kept back (R46, R62, R66, R69, R385). -/
def cBack (c : Core) (p k : Nat) : Core :=
  if (cpGet c p).closed || !portsUp c then c
  else if k = 0 && reqHeld c then cpMod c p (fun y => { y with owed := y.owed + 1 })
  else crdDrive (cpMod c p (fun y => { y with inCrd := earn y.inCrd k 1 })) (epC p) k 1

/-- A D-port's inbound entry is freed: its credit is returned, or kept back (R66, R69, R211, R385). -/
def dBack (c : Core) (d : Nat) : Core :=
  if (dpGet c d).closed || !portsUp c then c
  else if reqHeld c then dpMod c d (fun y => { y with owed := y.owed + 1 })
  else crdDrive (dpMod c d (fun y => { y with inCrd := earn y.inCrd 0 1 })) (epD d) 0 1

/-- A B-port's inbound entry of class k is freed (R66, R69). -/
def bBack (c : Core) (b k : Nat) : Core :=
  if (bpGet c b).closed then c else crdDrive (bpMod c b (fun y => { y with inCrd := earn y.inCrd k 1 })) (epB b) k 1

/-- A flit is written into an inbound boundary FIFO. A flip armed for category 12 strikes it: the payload fails its check at the ejecting
endpoint and again after the second read of the entry, so the data is delivered with poison and counts in category 12 (R364, R400). A flit
without data is not checked (R45). -/
def ingressFlip (c : Core) (ep : Nat) (f : Flit) : Flit × Core :=
  if !flipArmed c 12 then (f, c)
  else if (fMsg f).elim false msgData then (poisonFlit f, arrayError (flipFire c) { cat := 12, kind := 3, unit := ep })
  else (f, flipFire c)

/-- A flit is written into an outbound boundary FIFO. A flip armed for category 12 strikes it: a flit with DV = 1 that is no error completion
is driven with POISON = 1, a completion with OK_POISON; the failure of a flit with DV = 1 counts in category 12 (R45, R364). -/
def egressFlip (c : Core) (ep : Nat) (f : OutFlit) : OutFlit × Core :=
  if !flipArmed c 12 then (f, c)
  else
    let f' := if f.dv && !f.stat.isErr then { f with poison := true, stat := if f.msg == .cmpData then .okPoison else f.stat } else f
    (f', if f.dv then arrayError (flipFire c) { cat := 12, kind := 3, unit := ep } else flipFire c)

/-- Put a flit into a C-port's outbound FIFO and drive what its credits allow. A closed port drives nothing (R72). -/
def cpOut (c : Core) (p : Nat) (f : OutFlit) : Core :=
  if (cpGet c p).closed || !portsUp c then c
  else
    let e := egressFlip c (epC p) f
    let c := e.2
    let x := cpGet c p
    let r := drainQ (x.outq ++ [driveForm e.1]) x.credits [] []
    { c with cport := mput c.cport p { x with outq := r.2.1, credits := r.2.2 }
             wire := c.wire ++ r.1.map (fun g => .flit (epC p) g) }

/-- Put a flit into a D-port's outbound FIFO and drive what its credits allow. -/
def dpOut (c : Core) (d : Nat) (f : OutFlit) : Core :=
  if (dpGet c d).closed || !portsUp c then c
  else
    let e := egressFlip c (epD d) f
    let c := e.2
    let x := dpGet c d
    let r := drainQ (x.outq ++ [driveForm e.1]) x.credits [] []
    { c with dport := mput c.dport d { x with outq := r.2.1, credits := r.2.2 }
             wire := c.wire ++ r.1.map (fun g => .flit (epD d) g) }

/-- Drive a flit on a B-port, taking a credit of its class. -/
def bpOut (c : Core) (b : Nat) (f : OutFlit) : Core :=
  let e := egressFlip c (epB b) f
  let c := e.2
  let x := bpGet c b
  { c with bport := mput c.bport b { x with credits := spend x.credits (msgCls f.msg) }
           wire := c.wire ++ [.flit (epB b) e.1] }

/-- Flits of a message as they are written into the outbound boundary FIFO of S-port n (R45, R364). -/
def spanFlips (c : Core) (n : Nat) : List OutFlit → List Flit × Core
  | [] => ([], c)
  | f :: t =>
    let e := egressFlip c (106 + n) f
    let r := spanFlips e.2 n t
    (encFlit e.1 :: r.1, r.2)

/-! ### The span link layer, sending (R301 to R307). -/

/-- One step of the CRC-32 of IEEE 802.3, least significant bit first. -/
def crcStep (crc : Nat) (b : Bool) : Nat :=
  if (crc.testBit 0) != b then (crc / 2) ^^^ 0xEDB88320 else crc / 2

/-- CRC-32 over the low n bits of a number (R273, R301). -/
def crc32 (x n : Nat) : Nat :=
  ((List.range n).foldl (fun c i => crcStep c (x.testBit i)) 0xFFFFFFFF) ^^^ 0xFFFFFFFF

/-- Bits [767:0] of a frame. -/
def frameBits (f : Flit) (link : BitVec 64) : Nat :=
  f.pay.toNat + 2 ^ 512 * f.hdr.toNat + 2 ^ 704 * link.toNat

/-- A frame with its CRC (R301). -/
def mkFrame (f : Flit) (link : BitVec 64) : Frame :=
  { flit := f, link := link, crc := BitVec.ofNat 32 (crc32 (frameBits f link) 768) }

/-- The frame's CRC is good. -/
def frameOk (fr : Frame) : Bool := fr.crc == BitVec.ofNat 32 (crc32 (frameBits fr.flit fr.link) 768)

/-- Link header fields (R301). -/
def mkLink (ftype fseq fack av ccls cv src dst gw eseq : Nat) : BitVec 64 :=
  BitVec.ofNat 64 (ftype % 16 + 2 ^ 4 * (fseq % 4096) + 2 ^ 16 * (fack % 4096) + 2 ^ 28 * (av % 2) + 2 ^ 29 * (ccls % 8)
    + 2 ^ 32 * (cv % 2) + 2 ^ 33 * (src % 16) + 2 ^ 37 * (dst % 16) + 2 ^ 41 * (gw % 4) + 2 ^ 43 * (eseq % 65536))

/-- Link header bits [hi:lo]. -/
def lfld (fr : Frame) (hi lo : Nat) : Nat := (fr.link.toNat / 2 ^ lo) % 2 ^ (hi + 1 - lo)

/-- The flit of a frame that carries none. -/
def noFlit : Flit := { hdr := 0, pay := 0 }

/-- Drive a frame on an S-port; every frame returns the present FACK (R302). -/
def spDrive (c : Core) (n : Nat) (fr : Frame) : Core :=
  { c with wire := c.wire ++ [.frame n fr], sport := mmod c.sport n {} (fun s => { s with unacked := 0 }) }

/-- FACK of a link: the last frame received in order (R301). -/
def fackOf (s : SPort) : Nat := (s.expect + 4095) % 4096

/-- Drive a frame without a flit: IDLE 0, NAK 2. -/
def spIdle (c : Core) (n ftype ccls cv : Nat) : Core :=
  spDrive c n (mkFrame noFlit (mkLink ftype 0 (fackOf (spGet c n)) 1 ccls cv 0 0 0 0))

/-- A TRAIN frame (R304). -/
def trainFrame (c : Core) (n step : Nat) : Frame :=
  mkFrame { hdr := 0, pay := BitVec.ofNat 512 (step + 2 ^ 8 * c.dom.inst + 2 ^ 16 * n) } (mkLink 4 0 0 0 0 0 0 0 0 0)

/-- Announce (R304 step 1). -/
def announce (c : Core) (n : Nat) : Core :=
  spMod (spDrive c n (trainFrame c n 0)) n (fun s => { s with lastTrain := now c })

/-- Send the waiting flits of an S-port that have a link credit and replay room, at most `fuel` of them (R302). -/
def linkPump : Nat → Core → Nat → Core
  | 0, c, _ => c
  | fuel + 1, c, n =>
    let s := spGet c n
    match s.outq.find? (fun x => decide (0 < credit s.credits (fClass x.flit))) with
    | some x =>
      if s.up ∧ s.replay.length < 256 then
        let fr := mkFrame x.flit (mkLink 1 s.fseq (fackOf s) 1 0 0 x.src x.dst x.gw x.eseq)
        let c := spMod c n (fun s => { s with
          outq := s.outq.erase x, credits := spend s.credits (fClass x.flit),
          replay := s.replay ++ [(s.fseq, fr)], fseq := (s.fseq + 1) % 4096 })
        linkPump fuel (spDrive c n fr) n
      else c
    | none => c

/-- Hops to an instance through S-port n, if a live route of at most 3 hops starts there (R305, R307). -/
def routeHops (c : Core) (n dst : Nat) : Option Nat :=
  let s := spGet c n
  if s.up && s.nbValid && !s.conflict && !(c.dom.deadRoutes.contains (16 * dst + n)) then
    if s.neighbour = dst then some 1
    else
      let h := s.hops.getD dst 255 + 1
      if h ≤ 3 then some h else none
  else none

/-- The active route: fewest hops, then the lowest S-port (R305). -/
def activeRoute (c : Core) (dst : Nat) : Option Nat :=
  ([1, 2, 3].flatMap (fun h => (List.range 4).filter (fun n => routeHops c n dst == some h))).head?

/-- A message of a class finds room in a gateway's end-to-end buffer beside those in it: 1,024 places, 128 of them kept for each of the six classes
(R306). -/
def txFits (l : List SpanMsg) (k : Nat) : Bool :=
  let n := fun (j : Nat) => (l.filter (fun m => msgCls m.msg == j)).length
  decide (n k < 128) || decide (((List.range 6).map (fun j => n j - 128)).sum < 1024 - 6 * 128)

/-- The messages of a gateway that stand in its end-to-end buffer; the others wait for room (R306). -/
def txIn (l : List SpanMsg) : List SpanMsg := l.foldl (fun a m => if txFits a (msgCls m.msg) then a ++ [m] else a) []

/-- Put the flits of a message onto its destination's active route; without one it waits in the gateway (R308). -/
def spanPush (c : Core) (m : SpanMsg) : Core :=
  match activeRoute c m.dst with
  | some n =>
    let x := spanFlips c n m.flits
    let fs : List SpanFlit := x.1.map (fun f => { src := m.src, dst := m.dst, gw := m.gw, eseq := m.eseq, flit := f })
    let c := spMod x.2 n (fun s => { s with outq := s.outq ++ fs })
    linkPump (spGet c n).outq.length c n
  | none => c

/-- Send a message in the session of gateway k toward an instance: it takes the next ESEQ of its class, is kept in the end-to-end
buffer and leaves on the active route, once it has a place in that buffer (R306). -/
def spanSend (c : Core) (k dst : Nat) (msg : Msg) (flits : List OutFlit) : Core :=
  let g := gwGet c k
  let key := 16 * dst + msgCls msg
  let e := mget g.txSeq key 0
  let m : SpanMsg := { src := c.dom.inst, dst := dst, gw := k, eseq := e, msg := msg, flits := flits, t0 := now c }
  let c := gwMod c k (fun g => { g with txSeq := mput g.txSeq key ((e + 1) % 65536), tx := g.tx ++ [m] })
  if txFits (txIn g.tx) (msgCls msg) then spanPush (countInj c (epG k)) m else countInj c (epG k)

/-- Send every unacknowledged message of gateway k toward an instance again, oldest first, unchanged (R307). -/
def spanResend (c : Core) (k dst : Nat) : Core :=
  ((txIn (gwGet c k).tx).filter (fun m => m.dst == dst)).foldl spanPush c

end Sys2Proof.Machine
end

