-- ==== Sys2Proof/Machine/Filter.lean ====
section
/-! DEFINITION. The snoop filter and the proxy filter's entries: reading, building and changing an entry, the two copies, victims
(R140 to R151, R162, R163). -/

namespace Sys2Proof.Machine

/-- The tracker number that set recovery and repairs use in filter-copy writes; no entry has it. -/
def noTrk : Nat := 256

/-- Key of a filter location: partition, set, way (R140). -/
def sfKey (s si w : Nat) : Nat := (s * 4096 + si) * 16 + w

/-- The home copy's word. -/
def sfRd (c : Core) (s si w : Nat) : SfWord := mget c.arr.sfHome (sfKey s si w) {}
/-- The partner copy's word. -/
def sfRdP (c : Core) (s si w : Nat) : SfWord := mget c.arr.sfPart (sfKey s si w) {}

/-- Entry bits [hi:lo] (R143). -/
def efld (e : BitVec 56) (hi lo : Nat) : Nat := (e.toNat / 2 ^ lo) % 2 ^ (hi + 1 - lo)

/-- STATE (R144). -/
def eState (e : BitVec 56) : Nat := efld e 2 0
/-- FMT = VECTOR (R143). -/
def eVec (e : BitVec 56) : Bool := e.getLsbD 3
/-- TAG (R143). -/
def eTag (e : BitVec 56) : Nat := efld e 23 4
/-- SHR (R145). -/
def eShr (e : BitVec 56) : Nat := efld e 47 24
/-- LTAG (R143). -/
def eLtag (e : BitVec 56) : Nat := efld e 53 48

/-- The three EXACT slots (R145). -/
def eSlots (e : BitVec 56) : List Nat := [eShr e % 128, eShr e / 2 ^ 7 % 128, eShr e / 2 ^ 14 % 128]

/-- An entry from its fields (R143). -/
def mkEntry (state : Nat) (vec : Bool) (tag shr ltag : Nat) : BitVec 56 :=
  BitVec.ofNat 56 (state % 8 + 8 * b2n vec + 2 ^ 4 * (tag % 2 ^ 20) + 2 ^ 24 * (shr % 2 ^ 24) + 2 ^ 48 * (ltag % 64))

/-- SHR of an EXACT entry with at most three sharers, filled from ID0 upward (R145). -/
def exactShr (l : List Nat) : Nat :=
  l.getD 0 127 % 128 + 2 ^ 7 * (l.getD 1 127 % 128) + 2 ^ 14 * (l.getD 2 127 % 128)

/-- The VECTOR bit that covers a sharer index (R145). -/
def vecBit (i : Nat) : Nat := if i < 64 then i / 4 else 16 + (i - 64) / 4

/-- SHR of a VECTOR entry covering the listed sharers. -/
def vecShr (l : List Nat) : Nat := ofBits (l.map vecBit)

/-- Structural soundness of an entry (R144, R145): a bad one is treated as a parity error. -/
def eSane (own : Nat) (e : BitVec 56) : Bool :=
  match eState e with
  | 0 => true
  | 1 => eVec e || (eSlots e).all (fun i => i == 127 || (decide (i < 80) && i != 64 + own))
  | 2 => !eVec e && (eSlots e).all (fun i => i == 127 || (decide (i < 80) && i != 64 + own))
  | _ => false

/-- A word passes parity and R144, R145. -/
def sfWordOk (own : Nat) (w : SfWord) : Bool := sfGood w && eSane own w.bits

/-- Every way of the home copy of a set passes (R153). -/
def sfSetOk (c : Core) (s si : Nat) : Bool := (List.range 16).all (fun w => sfWordOk c.dom.inst (sfRd c s si w))

/-- The entry's line, as a domain line of this instance (R142). -/
def eLine (c : Core) (si : Nat) (e : BitVec 56) : Nat := c.dom.inst * 2 ^ 42 + sfLine si (eTag e) (eLtag e)

/-- The sharers an entry covers, requester or not: EXACT slots, or the members a VECTOR bit covers but the own proxy and proxies of
instances outside the domain (R145, R146). -/
def eSharers (c : Core) (e : BitVec 56) : List Nat :=
  if eState e = 0 then []
  else if eVec e then
    (List.range 80).filter (fun i => (eShr e).testBit (vecBit i) &&
      (decide (i < 64) || (decide (i - 64 ≠ c.dom.inst) && isMember c (i - 64))))
  else (eSlots e).filter (fun i => i != 127)

/-- The way that holds a line's entry. -/
def sfFind (c : Core) (s line : Nat) : Option Nat :=
  let si := sfSet line
  (List.range 16).find? (fun w =>
    let e := (sfRd c s si w).bits
    eState e != 0 && eTag e == sfTag line && eLtag e == sfLtag line)

/-- What the home's filter says of a line at LOOKUP (R84). -/
inductive View where
  | uncached
  | shared (way : Nat) (l : List Nat)
  | excl (way : Nat) (h : Nat)
  deriving DecidableEq, Repr

/-- The filter state of a line (R84). -/
def sfView (c : Core) (s line : Nat) : View :=
  match sfFind c s line with
  | none => .uncached
  | some w =>
    let e := (sfRd c s (sfSet line) w).bits
    if eState e = 2 then .excl w ((eSlots e).getD 0 127) else .shared w (eSharers c e)

/-- A location is retired in either physical array of the partition (R159). -/
def sfRetired (c : Core) (s si w : Nat) : Bool :=
  c.arr.retired.contains (2 * physOf c s, si, w) || c.arr.retired.contains (2 * physOf c (partnerOf s) + 1, si, w)

/-- A location is to be retired once its entry has gone (R159). -/
def sfRetiring (c : Core) (s si w : Nat) : Bool := c.arr.retiring.any (fun r => r.2.1 == s && r.2.2.1 == si && r.2.2.2 == w)

/-- Locations of a set out of use under R159, in either array (R160). -/
def sfOut (c : Core) (s si : Nat) : Nat := ((List.range 16).filter (fun w => sfRetired c s si w || sfRetiring c s si w)).length

/-- A way is reserved under R127 for another transaction. -/
def sfReserved (c : Core) (s si w : Nat) : Bool :=
  c.arr.resv.any (fun r => r.1 == s && r.2.1 == si && r.2.2.1 == w)

/-- The EXCLUSIVE entry of a holder (R147). -/
def entExcl (line h : Nat) : BitVec 56 := mkEntry 2 false (sfTag line) (exactShr [h]) (sfLtag line)

/-- The SHARED entry of a list of sharers: EXACT up to `mx` slots, else VECTOR; INVALID when empty (R147). -/
def entShared (mx line : Nat) (l : List Nat) : BitVec 56 :=
  if l = [] then 0
  else if l.length ≤ mx then mkEntry 1 false (sfTag line) (exactShr l) (sfLtag line)
  else mkEntry 1 true (sfTag line) (vecShr l) (sfLtag line)

/-- The entry with a sharer added (R147). -/
def entAdd (mx line : Nat) (e : BitVec 56) (i : Nat) : BitVec 56 :=
  if eState e = 0 then entShared mx line [i]
  else if eVec e then mkEntry 1 true (eTag e) (eShr e ||| 2 ^ vecBit i) (eLtag e)
  else
    let l := (eSlots e).filter (fun j => j != 127)
    if l.contains i then mkEntry 1 false (eTag e) (exactShr l) (eLtag e)
    else entShared mx line (l ++ [i])

/-- The entry with a sharer removed: an EXACT slot is freed and the later ones move down (assumption 84), a VECTOR bit stays (R147); no sharer
left is INVALID. -/
def entDrop (e : BitVec 56) (i : Nat) : BitVec 56 :=
  if eVec e then e
  else
    let l := (eSlots e).filter (fun j => j != 127 && j != i)
    if l = [] then 0 else mkEntry (eState e) false (eTag e) (exactShr l) (eLtag e)

/-- The entry once some sharers have answered that they hold the line no more: an EXACT slot is freed, a VECTOR bit is cleared once every
sharer that it covers has answered so or is excepted under R146 (R147). -/
def entGone (c : Core) (e : BitVec 56) (gone : List Nat) : BitVec 56 :=
  let left := (eSharers c e).filter (fun i => !gone.contains i)
  if left = [] then 0
  else if eVec e then mkEntry 1 true (eTag e) (eShr e &&& vecShr left) (eLtag e)
  else mkEntry (eState e) false (eTag e) (exactShr left) (eLtag e)

/-- Number of snoops that back-invalidating an entry would send (R149). -/
def sfCost (c : Core) (e : BitVec 56) : Nat := (eSharers c e).length

/-- NRU word of a filter set (R150). -/
def sfNruKey (s si : Nat) : Nat := s * 4096 + si

/-- A found-bad NRU word reads as zero and is an error of category 4, KIND 0 (R150, R176). -/
def nruFix (c : Core) (filt : Bool) (key unit set : Nat) : Core :=
  if c.arr.nruBad.contains (filt, key) then
    let c := { c with arr := { c.arr with
      nruBad := c.arr.nruBad.filter (fun x => x != (filt, key))
      sfNru := if filt then mdel c.arr.sfNru key else c.arr.sfNru
      lcNru := if filt then c.arr.lcNru else mdel c.arr.lcNru key } }
    arrayError c { cat := 4, kind := 0, unit := unit, set := set }
  else c

/-- An NRU word is written; a flip armed for category 4 strikes it (R364). -/
def nruWritten (c : Core) (filt : Bool) (key : Nat) : Core :=
  if flipArmed c 4 then
    let c := flipFire c
    { c with arr := { c.arr with nruBad := (filt, key) :: c.arr.nruBad } }
  else c

/-- Set the NRU bit of a filter way (R150). -/
def sfTouch (c : Core) (s si w : Nat) : Core :=
  let k := sfNruKey s si
  let c := nruFix c true k (33 + physOf c s) si
  let n := mget c.arr.sfNru k 0 ||| BitVec.ofNat 16 (2 ^ w)
  nruWritten { c with arr := { c.arr with sfNru := mput c.arr.sfNru k n } } true k

/-- A written unit with the flip of R364, if armed for the category: one parity bit inverted. -/
def flipWord (c : Core) (cat n : Nat) (w : SfWord) : SfWord × Core :=
  if flipArmed c cat then ({ w with par := w.par ^^^ BitVec.ofNat 7 (2 ^ flipByte c n) }, flipFire c) else (w, c)

/-- Write an entry into the home copy and send the filter-copy write; answers 1 where an acknowledgment is due (R87, R151). -/
def sfPut (c : Core) (s trk line w : Nat) (e : BitVec 56) : Core × Nat :=
  let si := sfSet line
  let fw := flipWord c 2 7 (sfMk e)
  let c := fw.2
  let old := (sfRd c s si w).bits
  let c := if eState e = 1 ∧ eVec e ∧ ¬ (eState old = 1 ∧ eVec old) ∧ eState old ≠ 0
    then ctrAdd c (0x100418 + 0x10000 * s) 32 1 else c
  let c := { c with arr := { c.arr with sfHome := mput c.arr.sfHome (sfKey s si w) fw.1 } }
  if oneCopy c s then (c, 0)
  else ({ c with fab := { c.fab with filtW := c.fab.filtW ++ [{ slice := s, trk := trk, set := si, way := w, word := sfMk e }] } }, 1)

/-- A line is held by a transaction: some tracker past the line queue names it (R78). A Ware line is held until the completion is sent
(R101). -/
def trkHolds (t : Trk) (line : Nat) : Bool :=
  t.req.line == line && t.st != .queued && t.st != .deferred && t.st != .attached && t.st != .bourdon && !(t.st == .ackWait && t.rtype == 3)

/-- The line is busy (R78). -/
def lineBusy (c : Core) (line : Nat) : Bool := c.arr.trk.any (fun t => trkHolds t line)

/-- Lowest INVALID, unretired, unreserved way of a set for a new entry (R149; the choice is the model's: assumption 84). -/
def sfFree (c : Core) (s si : Nat) : Option Nat :=
  (List.range 16).find? (fun w => eState (sfRd c s si w).bits == 0 && !sfRetired c s si w && !sfRetiring c s si w && !sfReserved c s si w)

/-- Candidates for a victim (R149 step 1, R168). -/
def sfCands (c : Core) (s si : Nat) : List Nat :=
  (List.range 16).filter (fun w =>
    let e := (sfRd c s si w).bits
    eState e != 0 && !sfRetired c s si w && !sfRetiring c s si w && !sfReserved c s si w && !lineBusy c (eLine c si e))

/-- The least-cost element of a list, the first among equals. -/
def minBy (f : Nat → Nat) : List Nat → Option Nat
  | [] => none
  | a :: t => match minBy f t with
    | none => some a
    | some b => if f b < f a then some b else some a

/-- Steps 2 to 4 of R149 over candidates, with the NRU word given. -/
def pickVictim (nru : BitVec 16) (cost : Nat → Nat) (mx : Nat) (cands : List Nat) : Option Nat :=
  let a := cands.filter (fun w => !nru.getLsbD w)
  let b := a.filter (fun w => decide (cost w ≤ mx))
  minBy cost (if b = [] then a else b)

/-- The victim of a full filter set, with the NRU bits cleared where no candidate's bit is 0 (R149). -/
def sfVictim (c : Core) (s si : Nat) : Option Nat × Core :=
  let k := sfNruKey s si
  let c := nruFix c true k (33 + physOf c s) si
  let cands := sfCands c s si
  let cost := fun w => sfCost c (sfRd c s si w).bits
  let nru := mget c.arr.sfNru k 0
  match pickVictim nru cost c.pol.costMax cands with
  | some w => (some w, c)
  | none =>
    if cands = [] then (none, c)
    else
      let n := nru &&& ~~~ BitVec.ofNat 16 (ofBits cands)
      (pickVictim n cost c.pol.costMax cands, { c with arr := { c.arr with sfNru := mput c.arr.sfNru k n } })

/-- A set is lost and under the Bourdon, or waits for a set slot (R155, R158). -/
def setLost (c : Core) (s si : Nat) : Option LostSet := c.arr.lost.find? (fun x => x.slice == s && x.set == si)

/-- A set recovery is in progress (R153). -/
def setHeld (c : Core) (s si : Nat) : Bool := c.arr.setRec.any (fun x => x.slice == s && x.set == si)

/-! ### Proxy-filter entries (R163). -/

/-- Key of a proxy location within its bank. -/
def pfKey (si w : Nat) : Nat := si * 16 + w
/-- The proxy word of gateway k. -/
def pfRd (c : Core) (k si w : Nat) : SfWord := mget (gwGet c k).pf (pfKey si w) {}
/-- STATE of a proxy entry. -/
def pState (e : BitVec 56) : Nat := efld e 1 0
/-- FMT of a proxy entry. -/
def pVec (e : BitVec 56) : Bool := e.getLsbD 2
/-- TAG of a proxy entry. -/
def pTag (e : BitVec 56) : Nat := efld e 33 4
/-- SHR[15:0] of a VECTOR entry, in bits [49:34]. -/
def pShr (e : BitVec 56) : Nat := efld e 49 34

/-- The agents a proxy entry covers. -/
def pAgents (e : BitVec 56) : List Nat :=
  if pState e = 0 then []
  else if pVec e then (List.range 64).filter (fun a => (pShr e).testBit (a / 4))
  else (if e.getLsbD 46 then [efld e 39 34] else []) ++ (if e.getLsbD 47 then [efld e 45 40] else [])

/-- A VECTOR proxy entry that covers the ports of a list of agents; INVALID when empty (R147, R163). -/
def pMkVec (tag : Nat) (l : List Nat) : BitVec 56 :=
  if l = [] then 0 else BitVec.ofNat 56 (1 + 4 + 2 ^ 4 * tag + 2 ^ 34 * ofBits (l.map (fun a => a / 4)))

/-- A proxy entry for a list of agents: EXACT up to 2, else VECTOR; INVALID when empty (R163). -/
def pMk (excl : Bool) (tag : Nat) (l : List Nat) : BitVec 56 :=
  match l with
  | [] => 0
  | [a] => BitVec.ofNat 56 ((if excl then 2 else 1) + 2 ^ 4 * tag + 2 ^ 34 * a + 2 ^ 46)
  | [a, b] => BitVec.ofNat 56 (1 + 2 ^ 4 * tag + 2 ^ 34 * a + 2 ^ 40 * b + 2 ^ 46 * 3)
  | _ => pMkVec tag l

/-- A proxy word passes its check: parity, and STATE not 3 (R169). -/
def pfWordOk (w : SfWord) : Bool := sfGood w && pState w.bits != 3

/-- The domain line of a proxy entry (R162). -/
def pLine (k si : Nat) (e : BitVec 56) : Nat :=
  let i := k + 4 * si
  pTag e * 2 ^ 16 + (i ^^^ (pTag e % 2 ^ 16))

/-- The way that holds a line in its bank. -/
def pfFind (c : Core) (line : Nat) : Option Nat :=
  let k := pfBank line
  let si := pfSet line
  (List.range 16).find? (fun w =>
    let x := pfRd c k si w
    pState x.bits != 0 && pTag x.bits == pfTag line)

/-- Write a proxy word; a flip armed for category 3 strikes it (R364). -/
def pfPut (c : Core) (line w : Nat) (e : BitVec 56) : Core :=
  let fw := flipWord c 3 7 (sfMk e)
  gwMod fw.2 (pfBank line) (fun g => { g with pf := mput g.pf (pfKey (pfSet line) w) fw.1 })

/-- A proxy set becomes UNFILTERED in both copies of the map; a flip armed for category 3 strikes the first (R169, R364). -/
def unfMark (c : Core) (k si : Nat) : Core :=
  if (gwGet c k).unfiltered.contains si && (gwGet c k).unfilteredB.contains si then c
  else
    let bad := flipArmed c 3
    gwMod (if bad then flipFire c else c) k (fun g => { g with
      unfiltered := if g.unfiltered.contains si then g.unfiltered else si :: g.unfiltered
      unfilteredB := if g.unfilteredB.contains si then g.unfilteredB else si :: g.unfilteredB
      unfBad := if bad then si :: g.unfBad else g.unfBad })

/-- A bit of the UNFILTERED map that fails its parity is rewritten from the other copy (R398). -/
def unfCheck (c : Core) (k si : Nat) : Core :=
  if !(gwGet c k).unfBad.contains si then c
  else
    let c := gwMod c k (fun g => { g with
      unfiltered := g.unfiltered.filter (fun x => x != si) ++ (if g.unfilteredB.contains si then [si] else [])
      unfBad := g.unfBad.filter (fun x => x != si) })
    arrayError c { cat := 3, kind := 1, unit := epG k, set := si % 4096 }

/-- Mark bad ways of a line's proxy set INVALID and the set UNFILTERED (R169). -/
def pfCheck (c : Core) (line : Nat) : Core :=
  let k := pfBank line
  let si := pfSet line
  let c := unfCheck c k si
  (List.range 16).foldl (fun c w =>
    if pfWordOk (pfRd c k si w) then c
    else
      let c := unfMark (gwMod c k (fun g => { g with pf := mdel g.pf (pfKey si w) })) k si
      let c := arrayError c { cat := 3, kind := 3, unit := epG k, way := w, set := si % 4096 }
      event c 0x305 [wd k, wd si]) c

end Sys2Proof.Machine
end

