-- ==== Sys2Proof/Machine/Cache.lean ====
section
/-! DEFINITION. The line cache: locations and their uses, the dirty limit L(c), free locations, choosing a location for a fill, a
dirty write or a mirror, recovery of failed locations and their disabling (R172 to R187, R489, R398, R399). -/

namespace Sys2Proof.Machine

/-- Key of a location: physical slice, set, way (R175). -/
def lcKey (ph cs w : Nat) : Nat := (ph * 2048 + cs) * 16 + w
/-- A location. -/
def lcRd (c : Core) (ph cs w : Nat) : Loc := mget c.arr.lc (lcKey ph cs w) {}

/-- Write a location as it stands. -/
def lcRaw (c : Core) (ph cs w : Nat) (l : Loc) : Core :=
  { c with arr := { c.arr with lc := if l = {} then mdel c.arr.lc (lcKey ph cs w) else mput c.arr.lc (lcKey ph cs w) l } }

/-- Write a line into a location; a flip armed for category 0 or 1 strikes data or tag (R364). -/
def lcPut (c : Core) (ph cs w : Nat) (l : Loc) : Core :=
  if flipArmed c 0 then lcRaw (flipFire c) ph cs w { l with dbad := true }
  else if flipArmed c 1 then lcRaw (flipFire c) ph cs w { l with tbad := true }
  else lcRaw c ph cs w l

/-- Free a location. -/
def lcFree (c : Core) (ph cs w : Nat) : Core := lcRaw c ph cs w {}

/-- Ways from this number on are Ware, or being converted to Ware (R188, R191). -/
def wareFrom (c : Core) : Nat := 16 - max c.arr.wcap (c.arr.wgoal.getD 0)

/-- A location is Disabled (R186, R187). -/
def lcDisabled (c : Core) (ph cs w : Nat) : Bool :=
  c.arr.disabled.contains (ph, cs, w) || c.arr.disWays.contains (ph, w)

/-- A location may be used for caching. -/
def lcUsable (c : Core) (ph cs w : Nat) : Bool := decide (w < wareFrom c) && !lcDisabled c ph cs w

/-- U(n, c) of R178: ways that are neither Disabled nor Ware. -/
def lcU (c : Core) (ph cs : Nat) : Nat := ((List.range 16).filter (lcUsable c ph cs)).length

/-- The physical slice a migrating logical slice is copied to also limits U (R408). -/
def lcUs (c : Core) (s cs : Nat) : Nat :=
  if roleOf c s == .migrating ∨ roleOf c s == .cutover then min (lcU c (physOf c s) cs) (lcU c (physOf c 32) cs)
  else lcU c (physOf c s) cs

/-- L(c) of the pair of slice s (R178), or of a pair that one physical slice bears (R415). -/
def lcL (c : Core) (s cs : Nat) : Nat :=
  if oneCopy c s then min (c.pol.b / 2) ((lcU c (physOf c s) cs - 4) / 4)
  else min (c.pol.b / 2) ((min (lcUs c s cs) (lcUs c (partnerOf s) cs) - 4) / 2)

/-- A dirty use (R175). -/
def Use.isDirty : Use → Bool
  | .budgeted => true
  | .transit => true
  | _ => false

/-- The location belongs to logical slice s as its own line. -/
def lcOwn (c : Core) (s : Nat) (l : Loc) : Bool := sliceOf c l.line == s

/-- Number of locations of a set that satisfy a test. -/
def lcCount (c : Core) (ph cs : Nat) (p : Loc → Bool) : Nat :=
  ((List.range 16).filter (fun w => p (lcRd c ph cs w))).length

/-- A fill into the location is in progress (R175). -/
def lcBusy (c : Core) (ph cs w : Nat) : Bool :=
  c.reads.any (fun r => r.phys == ph && r.way == some w && lcSet r.line == cs)

/-- A free location (R489). -/
def lcIsFree (c : Core) (ph cs w : Nat) : Bool :=
  lcUsable c ph cs w && !c.arr.leaving.contains (ph, cs, w) && !lcBusy c ph cs w && ((lcRd c ph cs w).use == .invalid || (lcRd c ph cs w).use == .clean)

/-- F(c) of R489. -/
def lcF (c : Core) (s cs : Nat) : Nat :=
  let ph := physOf c s
  let d := lcCount c ph cs (fun l => l.use == .budgeted || l.use == .transit || l.use == .mirror || l.use == .borrowed)
  max 1 (2 * lcL c s cs + 3 - d)

/-- Free locations of a set (R489). -/
def lcFrees (c : Core) (ph cs : Nat) : Nat := ((List.range 16).filter (lcIsFree c ph cs)).length

/-- The set holds at least F(c) free locations (R489). -/
def lcKeeps (c : Core) (s cs : Nat) : Bool := decide (lcF c s cs ≤ lcFrees c (physOf c s) cs)

/-- The set keeps at least F(c) free locations after one is taken (R489). -/
def lcMayTake (c : Core) (s cs : Nat) : Bool := decide (lcF c s cs + 1 ≤ lcFrees c (physOf c s) cs)

/-- Key of an NRU word of the line cache. -/
def lcNruKey (ph cs : Nat) : Nat := ph * 2048 + cs

/-- Set an NRU bit (R176). -/
def lcTouch (c : Core) (ph cs w : Nat) : Core :=
  let k := lcNruKey ph cs
  let c := nruFix c false k (33 + ph) cs
  nruWritten { c with arr := { c.arr with
    lcNru := mput c.arr.lcNru k (mget c.arr.lcNru k 0 ||| BitVec.ofNat 16 (2 ^ w)) } } false k

/-- Clear an NRU bit: a Trill fill leaves it at 0 (R176, R204). -/
def lcUntouch (c : Core) (ph cs w : Nat) : Core :=
  let k := lcNruKey ph cs
  let c := nruFix c false k (33 + ph) cs
  nruWritten { c with arr := { c.arr with
    lcNru := mput c.arr.lcNru k (mget c.arr.lcNru k 0 &&& ~~~ BitVec.ofNat 16 (2 ^ w)) } } false k

/-- The lowest Clean candidate with its NRU bit 0, clearing the candidates' bits first where all are 1 (R176). -/
def lcByNru (c : Core) (ph cs : Nat) (cands : List Nat) : Option Nat × Core :=
  let k := lcNruKey ph cs
  let c := nruFix c false k (33 + ph) cs
  let n := mget c.arr.lcNru k 0
  match cands.find? (fun w => !n.getLsbD w) with
  | some w => (some w, c)
  | none =>
    if cands = [] then (none, c)
    else (cands.head?, { c with arr := { c.arr with lcNru := mput c.arr.lcNru k (n &&& ~~~ BitVec.ofNat 16 (ofBits cands)) } })

/-- The location that a miss takes (R176, R489), none where it must wait. -/
def lcPickFill (c : Core) (s line : Nat) : Option Nat × Core :=
  let ph := physOf c s
  let cs := lcSet line
  if !lcMayTake c s cs then (none, c)
  else
    match (List.range 16).find? (fun w => lcIsFree c ph cs w && (lcRd c ph cs w).use == .invalid) with
    | some w => (some w, c)
    | none => lcByNru c ph cs ((List.range 16).filter (fun w =>
        lcIsFree c ph cs w && (lcRd c ph cs w).use == .clean && !lineBusy c (lcRd c ph cs w).line))

/-- The location that a dirty write, a mirror write or a move takes in a physical slice, but for one way (R489). -/
def lcPickBut (c : Core) (ph line : Nat) (skip : Option Nat) : Option Nat × Core :=
  let cs := lcSet line
  let free := (List.range 16).filter (fun w => lcIsFree c ph cs w && some w != skip)
  match free.find? (fun w => (lcRd c ph cs w).use == .clean && (lcRd c ph cs w).line == line) with
  | some w => (some w, c)
  | none =>
    match free.find? (fun w => (lcRd c ph cs w).use == .invalid) with
    | some w => (some w, c)
    | none =>
      let idle := free.filter (fun w => !lineBusy c (lcRd c ph cs w).line)
      let r := lcByNru c ph cs idle
      match r.1 with
      | some w => (some w, r.2)
      | none => (free.head?, r.2)

/-- The location that a dirty write, a mirror write or a move takes in a physical slice (R489). -/
def lcPickWrite (c : Core) (ph line : Nat) : Option Nat × Core := lcPickBut c ph line none

/-- The way in which a line's own copy lies: Clean, budgeted dirty or transit. -/
def lcFind (c : Core) (s line : Nat) : Option Nat :=
  let ph := physOf c s
  let cs := lcSet line
  (List.range 16).find? (fun w =>
    let l := lcRd c ph cs w
    l.line == line && (l.use == .clean || l.use.isDirty))

/-- The way of a line's Mirror in the partner's physical slice. -/
def mirFind (c : Core) (s line : Nat) : Option Nat :=
  let ph := physOf c (partnerOf s)
  let cs := lcSet line
  (List.range 16).find? (fun w =>
    let l := lcRd c ph cs w
    l.line == line && l.use == .mirror)

/-- The logical slice that a physical slice bears, the lower one of two; the spare is 32. -/
def sliceAt (c : Core) (ph : Nat) : Nat := ((List.range 33).find? (fun s => physOf c s == ph)).getD 32

/-- A dirty line or a Mirror moves to a free way of its set, and a Mirror's record of the home way follows; it stays where the set has no
location to spare (R186, R191, R405, R489). -/
def lcMove (c : Core) (ph cs w : Nat) : Core :=
  let l := lcRd c ph cs w
  if !(l.use.isDirty || l.use == .mirror) || !lcMayTake c (sliceAt c ph) cs then c
  else
    let r := lcPickWrite c ph l.line
    match r.1 with
    | none => r.2
    | some v =>
      let c := lcRaw (lcFree r.2 ph cs w) ph cs v l
      if l.use == .mirror then c
      else
        let s := sliceOf c l.line
        match mirFind c s l.line with
        | some u => lcRaw c (physOf c (partnerOf s)) cs u { lcRd c (physOf c (partnerOf s)) cs u with hway := v }
        | none => c

/-- The pinned hold's copy of a line (R185). -/
def heldOf (c : Core) (line : Nat) : Option Held := c.arr.hold.find? (fun h => h.line == line)

/-- Byte address of a line, for the error log. -/
def lineAddr (line : Nat) : Nat := localOf line * 64

/-- Replacement of what a physical slice bears is requested (R160, R187). -/
def askReplace (c : Core) (ph : Nat) : Core :=
  if c.arr.replace.contains ph then c else { c with arr := { c.arr with replace := c.arr.replace ++ [ph] } }

/-- A location or resource has left service: it is reported, with an interrupt (R27, R30; assumption 82). -/
def retired (c : Core) (e : ErrAt) (s : Nat) : Core := event (ringRouted (arrayError c e) 21) 0x302 [wd 3, wd s]

/-- Locations of a set that are Disabled, or are to be once their line has moved (R187). -/
def lcOut (c : Core) (ph cs : Nat) : Nat :=
  ((List.range 16).filter (fun w => lcDisabled c ph cs w || c.arr.leaving.contains (ph, cs, w))).length

/-- A way of a physical slice with 64 Disabled locations leaves service in every set, its lines being moved; a set that would have a fifth
location out of use requests replacement instead (R187). -/
def lcWhole (c : Core) (ph w : Nat) : Core :=
  if c.arr.disWays.contains (ph, w) || decide ((c.arr.disabled.filter (fun d => d.1 == ph && d.2.2 == w)).length < 64) then c
  else if (c.arr.disabled.filter (fun d => d.1 == ph)).any (fun d => !lcDisabled c ph d.2.1 w && decide (4 ≤ lcOut c ph d.2.1)) then
    askReplace c ph
  else
    let held := ((c.arr.lc.filter (fun p => p.1 / 32768 == ph && p.1 % 16 == w)).map (fun p => (ph, p.1 / 16 % 2048, w)))
    { c with arr := { c.arr with disWays := (ph, w) :: c.arr.disWays
                                 leaving := c.arr.leaving ++ held.filter (fun k => !c.arr.leaving.contains k) } }

/-- A location that is to leave service: a Clean line in it is invalidated, any other moves to a free way or waits for one; then it is
Disabled (R186, R187). -/
def lcLeave (c : Core) (k : Nat × Nat × Nat) : Core :=
  let l := lcRd c k.1 k.2.1 k.2.2
  let c := if l.use == .clean then lcFree c k.1 k.2.1 k.2.2 else lcMove c k.1 k.2.1 k.2.2
  if (lcRd c k.1 k.2.1 k.2.2).use != .invalid then c
  else
    let c := { c with arr := { c.arr with leaving := c.arr.leaving.filter (fun y => y != k) } }
    if lcDisabled c k.1 k.2.1 k.2.2 then c
    else lcWhole (retired { c with arr := { c.arr with disabled := k :: c.arr.disabled } }
      { cat := 0, kind := 4, unit := 33 + k.1, way := k.2.2, set := k.2.1 } (sliceAt c k.1)) k.1 k.2.2

/-- Locations whose line waits to move try again. -/
def lcLeaveAll (c : Core) : Core := c.arr.leaving.foldl lcLeave c

/-- A location leaves service, up to four a set; a fifth requests replacement instead (R186, R187). -/
def lcDisable (c : Core) (ph cs w : Nat) : Core :=
  if lcDisabled c ph cs w || c.arr.leaving.contains (ph, cs, w) then c
  else if 4 ≤ lcOut c ph cs then askReplace c ph
  else lcLeave { c with arr := { c.arr with leaving := c.arr.leaving ++ [(ph, cs, w)] } } (ph, cs, w)

/-- A location fails a check: it is remembered, and the third time within 2^24 TB ticks it is Disabled, up to four a set and a whole
way at 64 of it (R186, R187). -/
def lcFailed (c : Core) (ph cs w : Nat) : Core :=
  let recent := c.arr.fails.filter (fun f => f.1 == 0 && f.2.1 == ph && f.2.2.1 == cs && f.2.2.2.1 == w &&
    decide (now c < f.2.2.2.2 + 2 ^ 24))
  let c := { c with arr := { c.arr with fails := (0, ph, cs, w, now c) :: c.arr.fails } }
  if recent.length + 1 < 3 then c else lcDisable c ph cs w

/-- A location whose tag fails: rewritten from the Mirror that names it, else invalidated (R399). -/
def lcTagFix (c : Core) (s cs w : Nat) : Core :=
  let ph := physOf c s
  let pp := physOf c (partnerOf s)
  let l := lcRd c ph cs w
  if !l.tbad || l.use == .mirror then c
  else
    match (List.range 16).find? (fun v =>
        let m := lcRd c pp cs v
        m.use == .mirror && m.hway == w && sliceOf c m.line == s && !m.tbad) with
    | some v =>
      let m := lcRd c pp cs v
      let c := lcRaw c ph cs w { l with tbad := false, line := m.line, data := m.data, poison := m.poison, dbad := m.dbad }
      event (lcFailed (arrayError c { cat := 1, kind := 1, unit := 33 + ph, way := w, set := cs, addr := some (lineAddr m.line) }) ph cs w) 0x302
        [1, wd s]
    | none =>
      let c := lcFree c ph cs w
      lcFailed (arrayError c { cat := 1, kind := 0, unit := 33 + ph, way := w, set := cs }) ph cs w

/-- A Mirror whose tag fails is rewritten from the home's dirty line, or freed (R399). -/
def lcMirTagFix (c : Core) (s cs v : Nat) : Core :=
  let ph := physOf c s
  let pp := physOf c (partnerOf s)
  let m := lcRd c pp cs v
  if !(m.tbad && m.use == .mirror && sliceOf c m.line == s) then c
  else
    let h := lcRd c ph cs m.hway
    let kept := h.use.isDirty && h.line == m.line
    let c := if h.use.isDirty && h.line == m.line then
        lcRaw c pp cs v { m with tbad := false, dbad := h.dbad, data := h.data, poison := h.poison } else lcFree c pp cs v
    let c := lcFailed (arrayError c { cat := 1, kind := 1, unit := 33 + pp, way := v, set := cs, addr := some (lineAddr m.line) }) pp cs v
    if kept then event c 0x302 [1, wd s] else c

/-- The data of a Mirror fails: it is rewritten from the home's dirty line; one bad in both copies is poisoned there with its home copy
(R398). -/
def lcMirDataFix (c : Core) (s cs v : Nat) : Core :=
  let ph := physOf c s
  let pp := physOf c (partnerOf s)
  let m := lcRd c pp cs v
  if !(m.dbad && m.use == .mirror && sliceOf c m.line == s) then c
  else
    let h := lcRd c ph cs m.hway
    if h.use.isDirty && h.line == m.line && !h.dbad then
      let c := lcRaw c pp cs v { m with dbad := false, data := h.data, poison := h.poison }
      let c := arrayError c { cat := 0, kind := 1, unit := 33 + pp, way := v, set := cs, addr := some (lineAddr m.line) }
      event (lcFailed c pp cs v) 0x302 [1, wd s]
    else c

/-- The data of a line's location fails: a Clean line is invalidated, a dirty one is rewritten from its Mirror, and one bad in both
copies is poisoned with the alarm of R30 (R398). -/
def lcDataFix (c : Core) (s line : Nat) : Core :=
  match lcFind c s line with
  | none => c
  | some w =>
    let ph := physOf c s
    let cs := lcSet line
    let l := lcRd c ph cs w
    if !l.dbad then c
    else if l.use == .clean then
      lcFailed (arrayError (lcFree c ph cs w)
        { cat := 0, kind := 0, unit := 33 + ph, way := w, set := cs, addr := some (lineAddr line) }) ph cs w
    else
      let pp := physOf c (partnerOf s)
      match mirFind c s line with
      | some v =>
        let m := lcRd c pp cs v
        if !m.dbad then
          let c := arrayError (lcRaw c ph cs w { l with dbad := false, data := m.data, poison := m.poison })
            { cat := 0, kind := 1, unit := 33 + ph, way := w, set := cs, addr := some (lineAddr line) }
          event (lcFailed c ph cs w) 0x302 [1, wd s]
        else
          let c := lcRaw (lcRaw c ph cs w { l with dbad := false, poison := true }) pp cs v { m with dbad := false, poison := true }
          let c := lcFailed (arrayError (alarm c 1)
            { cat := 0, kind := 3, unit := 33 + ph, way := w, set := cs, addr := some (lineAddr line) }) ph cs w
          c
      | none =>
        let c := lcRaw c ph cs w { l with dbad := false, poison := true }
        lcFailed (arrayError (alarm c 1)
          { cat := 0, kind := 3, unit := 33 + ph, way := w, set := cs, addr := some (lineAddr line) }) ph cs w

/-- The tags of every way of a set are read and checked: its own lines, their Mirrors in the partner, and the partner's Mirrors here (R79,
R399). -/
def lcTags (c : Core) (s cs : Nat) : Core :=
  let c := (List.range 16).foldl (fun c w => lcTagFix c s cs w) c
  let c := (List.range 16).foldl (fun c v => lcMirTagFix c s cs v) c
  (List.range 16).foldl (fun c v => lcMirTagFix c (partnerOf s) cs v) c

/-- Every check that LOOKUP makes on a line's set of the line cache (R79, R398, R399). -/
def lcCheck (c : Core) (s line : Nat) : Core := lcDataFix (lcTags c s (lcSet line)) s line

/-- Where a write that makes a line dirty goes (R179, R185). -/
inductive Place where
  /-- A location, with the use it takes. -/
  | at_ (w : Nat) (u : Use)
  /-- It waits in its tracker. -/
  | wait
  /-- A write-back is written through (R185 step 3). -/
  | through
  deriving DecidableEq, Repr

/-- The line cache is disabled from the write of LC_EN = 0 until it is enabled again (R195). -/
def lcOffMode (c : Core) : Bool := c.lcStop

/-- Own dirty lines of slice s in a set with a given use. -/
def lcDirtyWays (c : Core) (s cs : Nat) (u : Use) : List Nat :=
  (List.range 16).filter (fun w => let l := lcRd c (physOf c s) cs w; l.use == u && lcOwn c s l)

/-- Transit lines of slice s (R179). -/
def transitCount (c : Core) (s : Nat) : Nat :=
  (c.arr.lc.filter (fun p => p.2.use == .transit && p.1 / 32768 == physOf c s && lcOwn c s p.2)).length

/-- The location of a write that makes a line dirty (R179, R185, R489). `wb`: a WB_DIRTY or data handled as one (R91). -/
def lcPlace (c : Core) (s line : Nat) (wb : Bool) : Place × Core :=
  let ph := physOf c s
  let cs := lcSet line
  match lcFind c s line with
  | some w =>
    if (lcRd c ph cs w).use.isDirty then (.at_ w (lcRd c ph cs w).use, c)
    else lcPlaceNew c s line wb
  | none => lcPlaceNew c s line wb
where
  /-- Cases 2 to 4. -/
  lcPlaceNew (c : Core) (s line : Nat) (wb : Bool) : Place × Core :=
    let ph := physOf c s
    let cs := lcSet line
    let own := lcDirtyWays c s cs .budgeted
    let tr := lcDirtyWays c s cs .transit
    let full := decide (64 ≤ transitCount c s)
    let pinnedAll := own.all (fun w => (lcRd c ph cs w).pin)
    let case2 := !lcOffMode c && (wb || lineType c line == 1) && decide (own.length < lcL c s cs)
    let case3 := (!wb || lcOffMode c || pinnedAll) && tr == [] && !full
    let trPinned := tr != [] && tr.all (fun w => (lcRd c ph cs w).pin)
    if case2 then
      let r := lcPickWrite c ph line
      (match r.1 with | some w => .at_ w .budgeted | none => .wait, r.2)
    else if case3 then
      let r := lcPickWrite c ph line
      (match r.1 with | some w => .at_ w .transit | none => .wait, r.2)
    else if wb && pinnedAll && (trPinned || full) then (.through, c)
    else (.wait, c)

end Sys2Proof.Machine
end

