-- ==== Sys2Proof/Machine/Bundles.lean ====
section
/-! DEFINITION. Write bundles and back-end reads as the home forms them: placing dirty lines in bundles, urgent one-line bundles, the
forced drain, queueing at a B-port (R97, R181, R264 to R268, R276, R282, R286, R356). -/

namespace Sys2Proof.Machine

/-- Queue a message at a B-port under requester 4s + cls (R282). -/
def bqPush (c : Core) (b s cls : Nat) (isRead : Bool) (id : Nat) : Core :=
  bpMod (flipQueue c (epB b)) b (fun x => { x with queue := x.queue ++ [{ rq := 4 * s + cls, isRead := isRead, id := id, t0 := now c }] })

/-- Remove a bundle's message from its port's queue. -/
def bqDrop (c : Core) (b id : Nat) : Core :=
  bpMod c b (fun x => { x with queue := x.queue.filter (fun m => m.isRead || m.id != id) })

/-- Change bundle `id`. -/
def bunMod (c : Core) (id : Nat) (f : Bundle → Bundle) : Core :=
  { c with bundles := c.bundles.map (fun x => if x.id = id then f x else x) }

/-- Bundle `id`. -/
def bunGet (c : Core) (id : Nat) : Option Bundle := c.bundles.find? (fun x => x.id == id)

/-- The requester that a B-port message belongs to, for its RID field: of the transaction that waits for it, and 0 where none does (R55,
assumption 81). -/
def backRid (c : Core) (s : Nat) (trk : Option Nat) : Nat :=
  match c.arr.trk.find? (fun t => t.slice == s && some t.idx == trk) with
  | some t => if t.req.rid < 96 then t.req.rid else 0
  | none => 0

/-- The BE_ABORT of a bundle (R39, R55, R267). -/
def abortFlit (c : Core) (x : Bundle) : OutFlit :=
  { msg := .beAbort, tag := x.tag.getD 0, rid := backRid c x.slice x.trk, be := beAll }

/-- Drop bundle `id`. -/
def bunDel (c : Core) (id : Nat) : Core := { c with bundles := c.bundles.filter (fun x => x.id != id) }

/-- The dirty location of a line, as phys, set, way and content. -/
def dirtyLoc (c : Core) (line : Nat) : Option (Nat × Nat × Nat × Loc) :=
  let s := sliceOf c line
  match lcFind c s line with
  | some w =>
    let l := lcRd c (physOf c s) (lcSet line) w
    if l.use.isDirty then some (physOf c s, lcSet line, w, l) else none
  | none => none

/-- The bundle that carries a line's present value, from its location or from the pinned hold. -/
def lineBundle (c : Core) (line : Nat) : Option Nat :=
  match dirtyLoc c line with
  | some (_, _, _, l) => l.bundle
  | none => match heldOf c line with
    | some h => h.bundle
    | none => none

/-- Note the bundle that carries a line's present value. -/
def setLineBundle (c : Core) (line : Nat) (b : Option Nat) : Core :=
  match dirtyLoc c line with
  | some (ph, cs, w, l) => lcRaw c ph cs w { l with bundle := b }
  | none => { c with arr := { c.arr with
      hold := c.arr.hold.map (fun h => if h.line = line then { h with bundle := b } else h) } }

/-- A line is pinned (R184, R185). -/
def linePinned (c : Core) (line : Nat) : Bool :=
  match dirtyLoc c line with
  | some (_, _, _, l) => l.pin
  | none => match heldOf c line with
    | some h => h.pinned
    | none => false

/-- Pin or unpin a line (R184, R279). -/
def setPin (c : Core) (line : Nat) (p : Bool) : Core :=
  match dirtyLoc c line with
  | some (ph, cs, w, l) => lcRaw c ph cs w { l with pin := p, bundle := if p then none else l.bundle }
  | none => { c with arr := { c.arr with
      hold := c.arr.hold.map (fun h => if h.line = line then
        { h with pinned := p, bundle := if p then none else h.bundle } else h) } }

/-- The value of a line that is not yet durable: data and poison, from its location or from the hold. -/
def dirtyValue (c : Core) (line : Nat) : Option (Line × Bool) :=
  match dirtyLoc c line with
  | some (_, _, _, l) => some (l.data, l.poison)
  | none => (heldOf c line).map (fun h => (h.data, h.poison))

/-- Release the Mirror of a line: a message to the partner without acknowledgment (R97). -/
def mirrorFree (c : Core) (s line : Nat) : Core :=
  { c with fab := { c.fab with mirRel := c.fab.mirRel ++ [(s, line)] } }

/-- Discard a line's own location and its Mirror (R197, R356). -/
def discardLine (c : Core) (line : Nat) : Core :=
  let s := sliceOf c line
  let c := { c with arr := { c.arr with hold := c.arr.hold.filter (fun h => h.line != line) } }
  match lcFind c s line with
  | some w =>
    let ph := physOf c s
    let l := lcRd c ph (lcSet line) w
    let c := lcFree c ph (lcSet line) w
    if l.use.isDirty then mirrorFree c s line else c
  | none => c

/-- Form a bundle of lines that hold a dirty value, with one B-port and key slot (R265, R275). Lines of an EMPTY key slot are pinned
instead (R276); a line's data is checked as it is read (R398); a line that now decodes as HOLE or WARE is discarded and counted (R356). Answers the bundle's identity. -/
def bundleNew (c : Core) (s cls : Nat) (urgent : Bool) (lines : List Nat) (trk job : Option Nat) (flush : Bool) :
    Option Nat × Core :=
  let c := lines.foldl (fun c l => lcDataFix c (sliceOf c l) l) c
  let gone := lines.filter (fun l => lineType c l == 0 || lineType c l == 3)
  let c := gone.foldl discardLine c
  let c := if gone = [] then c
    else event c 0x602 [wd ((rgnIndex c (gone.getD 0 0)).getD 0), wd gone.length]
  let live := lines.filter (fun l => !gone.contains l && (dirtyValue c l).isSome && (bportOf c l).isSome)
  let noKey := live.filter (keyEmpty c)
  let c := noKey.foldl (fun c l => setPin c l true) c
  match live.filter (fun l => !keyEmpty c l) with
  | [] => (none, c)
  | l0 :: ls =>
    let b := (bportOf c l0).getD 0
    let r := (rgnIndex c l0).getD 16
    let ls := (l0 :: ls).filter (fun l => bportOf c l == some b && (rgnIndex c l).getD 16 == r)
    let id := c.nextBundle
    let bl := ls.map (fun l => { line := l, data := ((dirtyValue c l).getD (0, false)).1,
                                 poison := ((dirtyValue c l).getD (0, false)).2 : BLine })
    let x : Bundle := {
      id := id, port := b, slice := s, cls := cls, urgent := urgent, lines := bl,
      key := rgnKey (rgnCur c r), meters := [rgnMeter (rgnCur c r)], trk := trk, job := job, flush := flush, firm := urgent }
    let c := { c with bundles := c.bundles ++ [x], nextBundle := id + 1 }
    let c := ls.foldl (fun c l => setLineBundle c l (some id)) c
    (some id, bqPush c b s (if urgent then 0 else cls) false id)

/-- Take a line out of a bundle that has not started; an empty bundle is dropped (R286). -/
def bundleLeave (c : Core) (id line : Nat) : Core :=
  match bunGet c id with
  | some x =>
    let ls := x.lines.filter (fun l => l.line != line)
    if ls = [] then bqDrop (bunDel c id) x.port id else bunMod c id (fun y => { y with lines := ls })
  | none => c

/-- A line leaves every bundle that has not started, in which no completion waits, for a newer one; one that has started becomes
unpreemptible, also while it waits to restart with the same lines (R267, R286). Answers the bundles left. -/
def leaveOld (c : Core) (line : Nat) : List Nat × Core :=
  let old := c.bundles.filter (fun x => x.lines.any (fun l => l.line == line))
  let out := (old.filter (fun x => x.st == .formed && x.tag.isNone && !x.urgent && x.trk.isNone)).map (fun x => x.id)
  let firm := (old.filter (fun x => x.tag.isSome && x.st != .sent)).map (fun x => x.id)
  let c := firm.foldl (fun c id => bunMod c id (fun y => { y with firm := true })) c
  (out, out.foldl (fun c id => bundleLeave c id line) c)

/-- Pug jobs that wait for a line in one of some bundles wait for it in another one (R197, R286). -/
def pugFollow (c : Core) (line : Nat) (old : List Nat) (new : Option Nat) : Core :=
  match new with
  | none => c
  | some n => { c with pug := c.pug.map (fun p =>
      (p.1, { p.2 with waits := p.2.waits.map (fun w => if w.1 = line ∧ old.contains w.2 = true then (w.1, n) else w) })) }

/-- A new urgent bundle for a line: it leaves the bundles that have not started (R286). -/
def urgentNew (c : Core) (s line : Nat) (trk job : Option Nat) (flush : Bool) : Option Nat × Core :=
  let l := leaveOld c line
  let r := bundleNew l.2 s 1 true [line] trk job flush
  (r.1, pugFollow r.2 line l.1 r.1)

/-- A completion waits on a line's durability: the bundle it waits for (R107, R286). -/
def urgentBundle (c : Core) (s line : Nat) (trk job : Option Nat) (flush : Bool) : Option Nat × Core :=
  match lineBundle c line with
  | some id =>
    match bunGet c id with
    | some x =>
      if x.st = .formed ∧ x.tag.isNone ∧ ¬ x.urgent then urgentNew c s line trk job flush
      else (some id, bunMod c id (fun y => { y with firm := true, trk := if y.trk.isNone then trk else y.trk }))
    | none => urgentNew c s line trk job flush
  | none => urgentNew c s line trk job flush

/-- The forced drain: the oldest budgeted line of a full set that is neither bundled nor pinned is bundled (R181). -/
def forcedDrain (c : Core) (s cs : Nat) : Core :=
  let ph := physOf c s
  let ways := (lcDirtyWays c s cs .budgeted).filter (fun w =>
    let l := lcRd c ph cs w
    l.bundle.isNone && !l.pin && l.mirrored)
  if (lcDirtyWays c s cs .budgeted).length < lcL c s cs then c
  else
    match minBy (fun w => (lcRd c ph cs w).age) ways with
    | some w => (bundleNew c s 1 false [(lcRd c ph cs w).line] none none false).2
    | none => c

/-- Bundle a list of a slice's dirty lines, port by port and region by region, at most 64 lines a bundle (R265). -/
def bundleMany : Nat → Core → Nat → Nat → List Nat → Option Nat → Bool → Core
  | 0, c, _, _, _, _, _ => c
  | n + 1, c, s, cls, lines, job, flush =>
    match lines with
    | [] => c
    | l0 :: _ =>
      let g := (lines.filter (fun l => bportOf c l == bportOf c l0 && rgnIndex c l == rgnIndex c l0)).take 64
      bundleMany n (bundleNew c s cls false g none job flush).2 s cls (lines.filter (fun l => !g.contains l)) job flush

/-- The dirty, unpinned lines of a slice that are in no bundle and mirrored: in its locations, then released ones of its hold. -/
def bundleable (c : Core) (s : Nat) : List Nat :=
  let own := (c.arr.lc.filter (fun p => p.2.use.isDirty && p.1 / 32768 == physOf c s && lcOwn c s p.2 && !p.2.pin &&
    p.2.bundle.isNone && p.2.mirrored)).map (fun p => p.2.line)
  own ++ (c.arr.hold.filter (fun h => h.slice == s && !h.pinned && h.bundle.isNone)).map (fun h => h.line)

/-- The Pug job number that stands for the implicit job of R194. -/
def lcJob : Nat := 4

/-- The implicit CLEAN_INVALIDATE of R194 goes on: it invalidates the Clean lines that are not busy and bundles what it may, and ends when none
but pinned lines are left and its bundles are durable (R194, R196). -/
def lcWalk (c : Core) : Core :=
  if !c.lcBusy then c
  else
    let c := { c with arr := { c.arr with lc := c.arr.lc.filter (fun p => p.2.use != .clean || lineBusy c p.2.line) } }
    let c := (List.range 33).foldl (fun c s =>
      let l := bundleable c s
      bundleMany l.length c s 3 l (some lcJob) false) c
    let left := c.arr.lc.any (fun p => p.2.use == .clean || (p.2.use == .budgeted && !p.2.pin)) || c.bundles.any (fun b => b.job == some lcJob)
    if left then c
    else if c.lcReen then { c with lcBusy := false, lcReen := false, lcStop := false, lcOff := false }
    else ringRouted { c with lcBusy := false, lcOff := true } 20

/-- Issue a BE_READ for a tracker (R92, R264); answers its serial number. -/
def readNew (c : Core) (b s phys trk line : Nat) (pref : Bool) (way : Option Nat) : Nat × Core :=
  let sn := c.nextBundle
  let r : Read := {
    sn := sn, tag := 0, port := b, slice := s, phys := phys, trk := trk, line := line, pref := pref, way := way, t0 := now c }
  (sn, bqPush { c with reads := c.reads ++ [r], nextBundle := sn + 1 } b s (if pref then 2 else 0) true sn)

end Sys2Proof.Machine
end

