-- ==== Sys2Proof/Machine/Home.lean ====
section
/-! DEFINITION. The home slice's shared engine: tracker entries, snoops, fills, the two-copy write, durability, completion and
release, and the LOOKUP decision tables (R77 to R127, R133, R176 to R185, R197, R223). Every command that reaches a home changes one
tracker entry and then lets `settle` carry every entry as far as its waits allow. -/

namespace Sys2Proof.Machine

/-! ### Tracker entries (R77). -/

/-- Tracker entry idx of logical slice s. -/
def trkGet (c : Core) (s idx : Nat) : Option Trk := c.arr.trk.find? (fun t => t.slice == s && t.idx == idx)

/-- Rewrite a tracker entry in place. -/
def trkPut (c : Core) (t : Trk) : Core :=
  { c with arr := { c.arr with trk := c.arr.trk.map (fun x => if x.slice = t.slice ∧ x.idx = t.idx then t else x) } }

/-- Free a tracker entry. -/
def trkDel (c : Core) (t : Trk) : Core :=
  { c with arr := { c.arr with trk := c.arr.trk.filter (fun x => !(x.slice == t.slice && x.idx == t.idx)) } }

/-- First entry number of a pool (R77; the numbering is the model's: assumption 84). -/
def poolBase : Pool → Nat
  | .general => 0
  | .writeback => 208
  | .internal => 240
/-- Size of a pool (R77). -/
def poolSize : Pool → Nat
  | .general => 208
  | .writeback => 32
  | .internal => 16

/-- The physical slice whose trackers take new requests of s: the new bearer during a cut-over window (R131, R134). -/
def homePhys (c : Core) (s : Nat) : Nat :=
  if sliceStops c s then physOf c (partnerOf s) else if roleOf c s == .cutover then physOf c 32 else physOf c s

/-- An entry number is in use at the slice or at the physical slice that takes its requests. -/
def trkUsed (c : Core) (s idx : Nat) : Bool :=
  c.arr.trk.any (fun t => t.idx == idx && (t.slice == s || t.phys == homePhys c s))

/-- The lowest free entry of a pool (R77; the choice is the model's: assumption 84). -/
def trkFree (c : Core) (s : Nat) (p : Pool) : Option Nat :=
  (firstFree (poolSize p) (fun i => trkUsed c s (poolBase p + i))).map (fun i => poolBase p + i)

/-- Free entries of a pool. -/
def poolFree (c : Core) (s : Nat) (p : Pool) : Nat :=
  ((List.range (poolSize p)).filter (fun i => !trkUsed c s (poolBase p + i))).length

/-- A request takes an entry: it arrives in the line queue (R78). A flip armed for category 5 is made good from the duplicate (R401). -/
def trkAdd (c : Core) (s idx : Nat) (p : Pool) (r : Req) (st : TrkSt) : Core :=
  let t : Trk := { slice := s, phys := homePhys c s, idx := idx, pool := p, req := r, st := st, t0 := now c }
  let c := { c with arr := { c.arr with trk := c.arr.trk ++ [t] } }
  if flipArmed c 5 then arrayError (flipFire c) { cat := 5, kind := 2, unit := 33 + homePhys c s } else c

/-- The entry of a request, by the ingress and internal tag it came under (R337). -/
def trkOfReq (c : Core) (src tag : Nat) : Option Trk :=
  c.arr.trk.find? (fun t => t.req.src == src && t.req.tag == tag && !t.second)

/-! ### Waiting for a tracker entry (R77, R137). -/

/-- What waits: a message, -/
def waitMsg (r : Req) : Nat := 4 * (r.src + 4096 * r.tag)
/-- the transaction that needs a back-invalidation, -/
def waitVictim (trk : Nat) : Nat := 4 * trk + 1
/-- or a slice's set sweep. -/
def waitSweep : Nat := 2

/-- A waiter is still there. -/
def waiterLives (c : Core) (x : Nat × Nat × Nat) : Bool :=
  if x.2.2 % 4 = 0 then c.fab.reqs.any (fun r => waitMsg r == x.2.2)
  else if x.2.2 % 4 = 1 then (trkGet c x.2.1 (x.2.2 / 4)).any (fun t => t.victim && t.way.isNone)
  else c.arr.lost.any (fun y => y.slice == x.2.1)

/-- Router of physical slice n (R324). -/
def routerOf (n : Nat) : Nat × Nat := (1 + n % 6, 1 + n / 6)

/-- Router of an endpoint that sends requests to homes: a C-port, a D-port, a gateway or Pug (R324). -/
def senderAt (e : Nat) : Nat × Nat :=
  if e < 82 then (0, (e - 66) / 2) else if e < 90 then (1 + (e - 82) % 6, 0) else if 106 ≤ e ∧ e < 110 then (1 + (e - 106), 7) else (5, 6)

/-- The input at which a slice's router receives what an endpoint sends, on the X-first route: 0 and 1 along y, 2 and 3 along x, 4 the turnaround
(R324, R328). -/
def fabInput (c : Core) (s e : Nat) : Nat :=
  let a := senderAt e
  let b := routerOf (homePhys c s)
  if a.2 < b.2 then 0 else if b.2 < a.2 then 1 else if a.1 < b.1 then 2 else if b.1 < a.1 then 3 else 4

/-- The fabric input of a message that waits. -/
def waitInput (c : Core) (s who : Nat) : Nat := fabInput c s (who / 4 % 4096)

/-- Whose turn it is at a pool of slice s among what waits for it, in order of arrival: the first; at the general pool the head of the next fabric
input in round-robin order (R137). -/
def poolHead (c : Core) (s : Nat) (p : Pool) (l : List Nat) : Option Nat :=
  if p ≠ .general then l.head?
  else
    let next := ((List.range 5).map (fun i => (mget c.arr.inputRR s 4 + 1 + i) % 5)).find? (fun i => l.any (fun w => waitInput c s w == i))
    match next with
    | some i => l.find? (fun w => waitInput c s w == i)
    | none => none

/-- `need` entries of a pool of slice s are free and it is the turn of who asks. Whoever does not get them waits (R77, R137). -/
def poolTurn (c : Core) (s : Nat) (p : Pool) (who : Nat) (need : Nat := 1) : Bool × Core :=
  let live := c.arr.waits.filter (waiterLives c)
  let me := (poolBase p, s, who)
  let all := if live.contains me then live else live ++ [me]
  let here := (all.filter (fun x => x.1 == poolBase p && x.2.1 == s)).map (fun x => x.2.2)
  let go := decide (need ≤ poolFree c s p) && poolHead c s p here == some who
  (go, { c with arr := { c.arr with
    waits := if go then live.filter (fun x => x != me) else all
    inputRR := if go && p == .general then mput c.arr.inputRR s (waitInput c s who) else c.arr.inputRR } })

/-- An older entry for the line still waits (R83). -/
def olderWaits (c : Core) (t : Trk) (line : Nat) : Bool :=
  (c.arr.trk.takeWhile (fun x => !(x.slice == t.slice && x.idx == t.idx))).any (fun x =>
    x.req.line == line && (x.st == .queued || x.st == .bourdon) && !(x.second && x.mate == some t.idx))

/-! ### Messages the home sends. -/

/-- A completion leaves for a requester (R82). -/
def cmpPush (c : Core) (x : Cmp) : Core :=
  let c := flipHop c
  { c with fab := { c.fab with cmps := c.fab.cmps ++ [x] } }

/-- A WB-class request. -/
def Op.isWb (o : Op) : Bool := o == .wbDirty || o == .evictClean

/-- A transaction uses the write-back it awaited or snooped for (R121): dirty data is its data; a clean one is completed at once. -/
def wbUse (t : Trk) (who : Nat) (dirty : Bool) (d : Line) (p : Bool) : Trk :=
  let t := { t with awaitWb := t.awaitWb.filter (fun a => a.1 != who), forwarded := false
                    gone := if t.gone.contains who then t.gone else t.gone ++ [who]
                    keepS := t.keepS.filter (fun i => i != who)
                    lateFilter := t.lateFilter || t.req.op == .rdShared
                    grant := if t.grant == .m then .e else t.grant }
  if dirty then { t with data := some d, poison := p, dirtyIn := some (d, p) } else t

/-- A sender's write-back has been attached, and has served the transaction (R119, R121). -/
def attachedOf (t : Trk) (who : Nat) : Bool := t.wbs.any (fun w => w.who == who)

/-- A write-back of an agent for a line is on its way from its port to the line's home, or waits there (R119). -/
def wbComing (c : Core) (who line : Nat) : Bool :=
  (cpGet c (portOfAgent who)).inq.any (waitingWb who line) ||
    c.fab.reqs.any (fun r => r.op.isWb && r.rid == who && r.line == line) ||
    c.arr.trk.any (fun t => t.st == .deferred && t.req.rid == who && t.req.line == line)

/-- A reset of the agent's port loses the line: it counts among those the reset poisons, and the event of R125 is written. -/
def lostNote (c : Core) (who line : Nat) : Core :=
  event (cpMod c (portOfAgent who) (fun y => { y with poisoned := y.poisoned ++ [line] })) 0x202
    [wd (epC (portOfAgent who)), 5, loW (line * 64), hiW (line * 64)]

/-- The holder of a line stands behind a closed port and no write-back of it is coming: its data is lost and the line poisoned (R73, R125). -/
def closedLost (c : Core) (t : Trk) (who : Nat) : Core × Trk :=
  let k := takeFree c
  (lostNote k.2 who t.req.line,
    { t with gone := t.gone ++ [who], data := some (Config.lostLine k.1), poison := true
             dirtyIn := some (Config.lostLine k.1, true), forwarded := false })

/-- Send one snoop of a transaction. A closed port's agent is answered with SNP_RESP, GST = I by Nderam itself (R72 step 4); where
a write-back of that agent is still coming the home waits for it; else the data of an EXCLUSIVE holder is lost and the line is poisoned (R73,
R121, R125). -/
def snoopOne (x : Core × Trk) (who : Nat) (msg : Msg) : Core × Trk :=
  let c := x.1
  let t : Trk := { x.2 with snooped := x.2.snooped ++ [who] }
  let frid := t.req.rid
  let f : OutFlit := { msg := msg, tag := t.idx, rid := who, line := t.req.line, be := fwdField frid t.req.tag }
  if who < 64 then
    let p := portOfAgent who
    if (cpGet c p).closed then
      if t.awaitWb.any (fun a => a.1 == who) || attachedOf t who then (c, t)
      else if wbComing c who t.req.line then (c, { t with awaitWb := t.awaitWb ++ [(who, now c)] })
      else if t.holder = some who ∧ msg ≠ .snpInval then closedLost c t who
      else (c, { t with gone := t.gone ++ [who] })
    else
      let c := cpMod c p (fun y => { y with snoops := y.snoops ++ [{ agent := who, line := t.req.line, phys := t.phys, trk := t.idx }] })
      (cpOut c p f, { t with snoops := t.snoops ++ [{ who := who, msg := msg, t0 := now c }] })
  else
    (spanSend c (pfBank t.req.line) (who - 64) msg [f], { t with snoops := t.snoops ++ [{ who := who, msg := msg, t0 := now c }] })

/-- Send a snoop to each of a list. -/
def snoopAll (c : Core) (t : Trk) (l : List Nat) (msg : Msg) : Core × Trk :=
  l.foldl (fun x w => snoopOne x w msg) (c, t)

/-- Where a broadcast goes: every local agent of every C-port whose reset is deasserted, and every other member's proxy, but the
requester (R133, R156). -/
def bcastTo (c : Core) (req : Option Nat) : List Nat :=
  (List.range 80).filter (fun i => some i != req &&
    (if i < 64 then !(cpGet c (portOfAgent i)).resetIn else (i - 64 != c.dom.inst) && isMember c (i - 64)))

/-! ### Bourdon slots (R131). -/

/-- A line holds a Bourdon slot. -/
def slotHeld (c : Core) (line : Nat) : Bool := c.arr.trk.any (fun t => t.slot && t.req.line == line)

/-- Slots in use, of 64. -/
def slotsUsed (c : Core) : Nat := (c.arr.trk.filter (fun t => t.slot)).length

/-- A released slot passes to the next request in its queue. -/
def passSlot (c : Core) (line : Nat) : Core :=
  match c.arr.trk.find? (fun x => x.st == .bourdon && !x.second && x.req.line == line) with
  | some x => trkPut c { x with slot := true }
  | none => c

/-! ### What a request is (R94, R102, R108, R197). -/

/-- The request writes the line (its own write). A STORE_COND writes when its reservation held. -/
def isWrite (t : Trk) : Bool :=
  match t.req.op with
  | .wrFull | .wrPartial | .store => true
  | .storeCond => t.res
  | .pug => t.req.aux == 4
  | _ => false

/-- The write replaces the whole line (R91, R94). -/
def isWhole (t : Trk) : Bool :=
  isWrite t && (t.req.op == .wrFull || t.req.op == .pug || t.req.be == beAll)

/-- The transaction needs the line's value (R92, R94). -/
def needsData (t : Trk) : Bool :=
  if t.second then false
  else match t.req.op with
    | .rdShared | .rdUnique | .rdOnce | .load | .loadRes | .prefetch => true
    | .cleanUnique => !t.noData
    | _ => isWrite t && !isWhole t

/-- The request comes from a D-port of this instance, or from a gateway on behalf of one (R82, R108). -/
def isDirect (r : Req) : Bool :=
  decide (64 ≤ r.rid ∧ r.rid < 72) || r.op == .load || r.op == .store || r.op == .loadRes || r.op == .storeCond

/-- The requests that only want to be ordered and written back (R112 to R114). -/
def isInternal (t : Trk) : Bool := t.req.op == .prefetch || t.req.op == .backInval || t.req.op == .sweep

/-! ### Filter changes within a transaction (R87). -/

/-- Write the transaction's entry into a way, and expect the acknowledgment. -/
def entWrite (c : Core) (t : Trk) (w : Nat) (e : BitVec 56) : Core × Trk :=
  let r := sfPut c t.slice t.idx t.req.line w e
  (r.1, { t with fcopies := t.fcopies + r.2, sentAt := now c })

/-- Change or create the entry of the transaction's line. A new entry takes a free way, or waits for a victim (R114, R127). -/
def entSet (c : Core) (t : Trk) (e : BitVec 56) : Core × Trk :=
  let s := t.slice
  let si := sfSet t.req.line
  match sfFind c s t.req.line with
  | some w => entWrite c t w e
  | none =>
    if e = 0 then (c, t)
    else
      let w := match t.way with | some w => some w | none => sfFree c s si
      match w with
      | some w =>
        let c := { c with arr := { c.arr with resv := c.arr.resv.filter (fun r => !(r.1 == s && r.2.2.2 == t.idx && r.2.1 == si)) } }
        entWrite (sfTouch c s si w) { t with way := none, victim := false, newEnt := none } w e
      | none => (c, { t with victim := true, newEnt := some e })

/-- The entry once a transaction's answers are in, where it was not written at LOOKUP (R102, R108, R133). -/
def lateEntry (c : Core) (t : Trk) : BitVec 56 :=
  let mx := c.pol.exactMax
  let line := t.req.line
  let me := if t.stat.isErr then none else sharerIdx t.req.rid
  let cur := match sfFind c t.slice line with
    | some w => (sfRd c t.slice (sfSet line) w).bits
    | none => 0
  let held := match t.holder with
    | some h => if t.keepS.contains h then [h] else []
    | none => []
  let kept := if t.bcast then t.keepS else held
  match t.req.op with
  | .rdShared =>
    if !t.bcast && t.holder.isSome && t.holder != me then entGone c cur t.gone
    else entShared mx line ((kept.filter (fun i => some i != me)) ++ me.toList)
  | .rdUnique | .cleanUnique => match me with
    | some i => entExcl line i
    | none => 0
  | .rdOnce | .load | .loadRes | .persist => entShared mx line kept
  | .pug => if t.req.aux = 5 then entShared mx line kept else 0
  | .backInval => entGone c cur t.snooped
  | _ => 0

/-- The read grants nothing: the requester leaves the entry it was to get (R115, R276). -/
def entUndo (c : Core) (t : Trk) : Trk :=
  match sharerIdx t.req.rid with
  | none => t
  | some i =>
    if t.bcast || (t.req.op != .rdShared && t.req.op != .rdUnique && t.req.op != .cleanUnique) then t
    else if (sfFind c t.slice t.req.line).isNone then { t with newEnt := none, victim := false, lateFilter := false }
    else { t with newEnt := none, victim := false, lateFilter := false, leave := t.leave ++ i :: t.gone }

/-- Sharers that are to leave the entry leave it, once the set is not held (R153). -/
def stDrop (x : Core × Trk) : Core × Trk :=
  let c := x.1
  let t := x.2
  if t.leave = [] || setHeld c t.slice (sfSet t.req.line) then x
  else match sfFind c t.slice t.req.line with
    | none => (c, { t with leave := [] })
    | some w =>
      let e := (sfRd c t.slice (sfSet t.req.line) w).bits
      let e' := t.leave.foldl entDrop e
      if e' = e then (c, { t with leave := [] }) else entWrite c { t with leave := [] } w e'

/-! ### Reservations (R219 to R223). -/

/-- Key of a monitor entry. -/
def monKey (s rid : Nat) : Nat := s * 12 + (rid - 64)

/-- Cancel every reservation on the granule of a line (R223). -/
def monCancel (c : Core) (s line : Nat) : Core :=
  { c with arr := { c.arr with mon := c.arr.mon.filter (fun p => !(decide (p.1 / 12 = s) && p.2.granule == line / 2)) } }

/-- Cancel a requester's reservation in a slice. -/
def monDrop (c : Core) (s rid : Nat) : Core := { c with arr := { c.arr with mon := mdel c.arr.mon (monKey s rid) } }

/-- The requester holds a live reservation on the line's granule (R110, R223). A monitor entry found bad is cancelled (R398). -/
def monHolds (c : Core) (s rid line : Nat) : Bool × Core :=
  match mfind? c.arr.mon (monKey s rid) with
  | none => (false, c)
  | some m =>
    if m.bad then
      (false, arrayError (monDrop c s rid) { cat := 7, kind := 3, unit := 33 + physOf c s })
    else (m.granule == line / 2 && decide (now c ≤ m.expiry), c)

/-- Record a reservation (R221). -/
def monSet (c : Core) (s rid line life : Nat) : Core :=
  let bad := flipArmed c 7
  let c := if bad then flipFire c else c
  let m : Mon := { granule := line / 2, expiry := now c + 2 ^ (life + 8), bad := bad }
  { c with arr := { c.arr with mon := mput c.arr.mon (monKey s rid) m } }

/-! ### Data (R92, R93). -/

/-- The first refusal for an EMPTY key slot in a region writes KEY_EMPTY (R276). -/
def keyEmptyTold (c : Core) (line : Nat) : Core :=
  match rgnIndex c line with
  | some r =>
    let e := mget c.rgn r {}
    if e.keyTold then c
    else event { c with rgn := mput c.rgn r { e with keyTold := true } } 0x504 [wd r, wd (rgnKey e.cur)]
  | none => c

/-- Issue the fill of a transaction: without a key it is refused, without a location it waits (R92, R100, R177, R195, R276). -/
def startFill (c : Core) (t : Trk) : Core × Trk :=
  if keyEmpty c t.req.line then
    (keyEmptyTold c t.req.line, entUndo c { t with stat := .errProtect, forwarded := false, fill := .none })
  else match bportOf c t.req.line with
    | none => (c, entUndo c { t with stat := .errDecode, fill := .none })
    | some b =>
      let pref := t.req.op == .prefetch
      if t.rtype = 2 ∨ lcOffMode c then
        let r := readNew c b t.slice t.phys t.idx t.req.line pref none
        (r.2, { t with fill := .out r.1 })
      else
        let p := lcPickFill c t.slice t.req.line
        match p.1 with
        | none => (p.2, { t with fill := .noWay })
        | some w =>
          let ph := physOf c t.slice
          let r := readNew (lcFree p.2 ph (lcSet t.req.line) w) b t.slice t.phys t.idx t.req.line pref (some w)
          (r.2, { t with fill := .out r.1 })

/-- A demand hit on a location: NRU bit, and the first demand read of a prefetched line (R176, R204, R206). -/
def demandHit (c : Core) (s cs w : Nat) (read : Bool) : Core :=
  let ph := physOf c s
  let l := lcRd c ph cs w
  let c := lcTouch c ph cs w
  if l.pf && read then ctrAdd (lcRaw c ph cs w { l with pf := false }) (0x100314 + 0x10000 * s) 32 1 else c

/-- Take the line's value from the pinned hold or the cache, else fill (R92, R185, R489). -/
def stData (x : Core × Trk) : Core × Trk :=
  let c := x.1
  let t := x.2
  if !(needsData t) || t.data.isSome || t.stat.isErr || (t.fill != .none && t.fill != .noWay) || t.forwarded then (c, t)
  else match heldOf c t.req.line with
    | some h => (c, { t with data := some h.data, poison := h.poison })
    | none =>
      if t.rtype = 2 then startFill c t
      else match lcFind c t.slice t.req.line with
        | some w =>
          let l := lcRd c (physOf c t.slice) (lcSet t.req.line) w
          (demandHit c t.slice (lcSet t.req.line) w (!isWrite t), { t with data := some l.data, poison := l.poison })
        | none => startFill c t

/-! ### The stages of a transaction after LOOKUP. -/

/-- The forwarding snoop leaves once both filter copies hold the change (R87). -/
def stFwd (x : Core × Trk) : Core × Trk :=
  match x.2.fwd with
  | some (h, m) => if x.2.fcopies = 0 ∧ !x.2.both ∧ !x.2.victim then snoopOne (x.1, { x.2 with fwd := none }) h m else x
  | none => x

/-- A waiting filter entry is written when its victim's way has come (R114). -/
def stNew (x : Core × Trk) : Core × Trk :=
  match x.2.newEnt with
  | some e => if !setHeld x.1 x.2.slice (sfSet x.2.req.line) && (x.2.way.isSome || (sfFree x.1 x.2.slice (sfSet x.2.req.line)).isSome)
      then entSet x.1 { x.2 with newEnt := none, victim := false } e else x
  | none => x

/-- Snoop answers, write-backs, a victim or a forward are awaited. -/
def gathering (t : Trk) : Bool :=
  t.snoops != [] || t.awaitWb != [] || t.fwd.isSome || t.victim || t.newEnt.isSome || t.leave != []

/-- The fill is awaited, also where an answer has brought the data (R93); a transaction that has its data waits for no location. -/
def filling (t : Trk) : Bool :=
  match t.fill with
  | .none => false
  | .noWay => t.data.isNone && needsData t && !t.stat.isErr
  | .out _ => !t.stat.isErr

/-- Write a line dirty into a location and send the mirror write (R95). -/
def writeDirty (c : Core) (t : Trk) (w : Nat) (u : Use) (d : Line) (p : Bool) : Core × Trk :=
  let s := t.slice
  let ph := physOf c s
  let cs := lcSet t.req.line
  let old := lcRd c ph cs w
  let keep := old.line == t.req.line && old.use.isDirty
  let l : Loc := {
    use := u, line := t.req.line, poison := p, pin := keep && old.pin, data := d, mirrored := false, age := c.arr.age }
  let c := lcPut c ph cs w l
  let c := { c with arr := { c.arr with age := c.arr.age + 1 } }
  let m : MirW := {
    slice := s, trk := t.idx, set := cs, hway := w, line := t.req.line, data := d, poison := p, transit := u == .transit }
  ({ c with fab := { c.fab with mirW := c.fab.mirW ++ [m] } }, { t with mirrors := t.mirrors + 1, sentAt := now c })

/-- A line of the pinned hold is superseded once its new value is in two copies (R185). -/
def dropHeld (c : Core) (line : Nat) : Core :=
  { c with arr := { c.arr with hold := c.arr.hold.filter (fun h => h.line != line) } }

/-- The pinned hold of a slice has no place for a line (R185). -/
def holdFull (c : Core) (s line : Nat) : Bool := decide (16 ≤ (c.arr.hold.filter (fun h => h.slice == s && h.line != line)).length)

/-- Dirty data that an answer or a write-back brought is written, unless the transaction replaces the whole line (R91). -/
def stIn (x : Core × Trk) : Core × Trk :=
  let c := x.1
  let t := x.2
  match t.dirtyIn with
  | none => x
  | some (d, p) =>
    if isWhole t && !t.stat.isErr then (c, { t with dirtyIn := none })
    else
      let c := forcedDrain c t.slice (lcSet t.req.line)
      let r := lcPlace c t.slice t.req.line true
      match r.1 with
      | .at_ w u =>
        let y := writeDirty r.2 t w u d p
        (y.1, { y.2 with dirtyIn := none, st := .gather })
      | .through =>
        if t.through then (r.2, t)
        else if wrefOf c t.req.line ∧ holdFull r.2 t.slice t.req.line then
          let c := if t.told then r.2 else
            event (alarm r.2 5) 0x505 [wd t.slice, loW (lineAddr t.req.line), hiW (lineAddr t.req.line), wd ((bportOf c t.req.line).getD 0)]
          (c, { t with told := true, st := .place })
        else
          let s := t.slice
          let b := (bportOf c t.req.line).getD 0
          let id := r.2.nextBundle
          let rg := (rgnIndex c t.req.line).getD 16
          let bn : Bundle := {
            id := id, port := b, slice := s, cls := 1, urgent := true, firm := true,
            lines := [{ line := t.req.line, data := d, poison := p }], key := rgnKey (rgnCur c rg),
            meters := [rgnMeter (rgnCur c rg)], trk := some t.idx }
          let c := match lcFind r.2 s t.req.line with
            | some w => lcFree r.2 (physOf c s) (lcSet t.req.line) w
            | none => r.2
          let c := dropHeld c t.req.line
          let c := bqPush { c with bundles := c.bundles ++ [bn], nextBundle := id + 1 } b s 0 false id
          (c, { t with through := true, bundle := some id, st := .durable })
      | .wait => (r.2, { t with st := .place })

/-- The poison of the line's value as the slice holds it. -/
def cachedPoison (c : Core) (s line : Nat) : Bool :=
  match heldOf c line, lcFind c s line with
  | some h, _ => h.poison
  | none, some w => (lcRd c (physOf c s) (lcSet line) w).poison
  | none, none => false

/-- The merged value of the transaction's own write (R39, R40, R94). A WR_PARTIAL or STORE of all 64 bytes fills nothing, and keeps the
poison of the value that it finds. -/
def ownValue (c : Core) (t : Trk) : Line × Bool :=
  if t.req.op == .wrFull || t.req.op == .pug then (t.req.data, t.req.poison)
  else if isWhole t then (t.req.data, t.req.poison || (if t.data.isSome then t.poison else cachedPoison c t.slice t.req.line))
  else (mergeLine t.req.be t.req.data (t.data.getD 0), t.req.poison || t.poison)

/-- The transaction's own write (R95 step 1). -/
def stOwn (x : Core × Trk) : Core × Trk :=
  let c := x.1
  let t := x.2
  if !isWrite t || t.wrote || t.stat.isErr || t.dirtyIn.isSome || filling t then x
  else
    let c := forcedDrain c t.slice (lcSet t.req.line)
    let r := lcPlace c t.slice t.req.line false
    match r.1 with
    | .at_ w u =>
      let v := ownValue c t
      let y := writeDirty r.2 t w u v.1 v.2
      (y.1, { y.2 with wrote := true, transit := u == .transit, st := .gather })
    | _ => (r.2, { t with st := .place })

/-- The final change of the filter entry (R102, R108). -/
def stLate (x : Core × Trk) : Core × Trk :=
  let c := x.1
  let t := x.2
  if !t.lateFilter || t.dirtyIn.isSome || setHeld c t.slice (sfSet t.req.line) then x
  else entSet c { t with lateFilter := false } (lateEntry c t)

/-- Every acknowledgment is in. -/
def ackedAll (t : Trk) : Bool := t.mirrors == 0 && t.fcopies == 0

/-- The reference of a port's reissue record of snoop data: its slice, tracker and agent (R412). -/
def recRef (agent phys trk : Nat) : Ref := { src := epC (portOfAgent agent), tag := 65536 + (phys * 256 + trk) * 64 + agent }

/-- Hold notices for the snoop data of a tracker entry that is in two copies, or that was discarded (R412). -/
def holdRecs (c : Core) (t : Trk) : Core :=
  let l := (c.cport.flatMap (fun p => p.2.recs)).filter (fun r => r.phys == t.phys && r.trk == t.idx)
  let refs := (l.map (fun r => recRef r.agent r.phys r.trk)).filter (fun r => !c.fab.holdN.contains r)
  { c with fab := { c.fab with holdN := c.fab.holdN ++ refs } }

/-- A hold notice for a write-back's payload (R412). -/
def holdWb (c : Core) (r : Req) : Core :=
  if r.op == .wbDirty then { c with fab := { c.fab with holdN := c.fab.holdN ++ [{ src := r.src, tag := r.tag }] } } else c

/-- A write-back that has served a transaction completes with CMP, and its entry is free (R121, R151, R412). -/
def wbDone (c : Core) (b : Trk) : Core :=
  let c := holdWb c b.req
  trkDel (cmpPush { c with fab := { c.fab with closeN := c.fab.closeN ++ [(b.slice, b.idx)] } }
    { dst := b.req.src, tag := b.req.tag, line := b.req.line, phys := b.phys, trk := b.idx }) b

/-- Attached write-backs complete, and reissue records of snoop data are released, once the data is in two copies or discarded (R121,
R412). -/
def stWbs (x : Core × Trk) : Core × Trk :=
  let t := x.2
  if t.dirtyIn.isSome || t.mirrors != 0 then x
  else
    let c := holdRecs x.1 t
    let c := (t.wbs.filter (fun w => w.kept)).foldl (fun c w => match trkGet c t.slice w.trk with
      | some b => wbDone c b
      | none => c) c
    (c, { t with wbs := t.wbs.map (fun w => { w with kept := false }) })

/-- A write-back joins a transaction (R119): its sender is snooped, or is the requester whose own write-back is awaited. -/
def wbJoins (t : Trk) (who : Nat) : Bool :=
  t.passed && (t.snooped.contains who || t.awaitWb.any (fun a => a.1 == who) ||
    (match t.fwd with | some (h, _) => h == who | none => false))

/-- The write-back in entry b is attached to a transaction and serves it as the answer to its snoop (R119, R121). It completes at once where
it brings no data, or data that the transaction discards. -/
def wbAttach (c : Core) (t b : Trk) : Core × Trk :=
  let who := (sharerIdx b.req.rid).getD 127
  let dirty := b.req.op == .wbDirty
  let live := t.snoops.any (fun s => s.who == who) || t.awaitWb.any (fun a => a.1 == who) ||
    (match t.fwd with | some (h, _) => h == who | none => false)
  let t := if live then wbUse t who dirty b.req.data b.req.poison
    else
      let t := if sharerIdx t.req.rid = some who then t else { t with leave := t.leave ++ [who] }
      if dirty then { t with data := some b.req.data, poison := b.req.poison, dirtyIn := some (b.req.data, b.req.poison) } else t
  if !dirty || isWhole t then (wbDone c b, { t with wbs := t.wbs ++ [{ who := who, trk := b.idx, kept := false }] })
  else (trkPut c { b with st := .attached, mate := some t.idx }, { t with wbs := t.wbs ++ [{ who := who, trk := b.idx }] })

/-- Write-backs deferred beside a transaction that was still in LOOKUP join it once it snoops their senders (R119). -/
def stJoin (x : Core × Trk) : Core × Trk :=
  (x.1.arr.trk.filter (fun b => b.st == .deferred && b.req.line == x.2.req.line)).foldl (fun y b =>
    if wbJoins y.2 ((sharerIdx b.req.rid).getD 127) then wbAttach y.1 y.2 b else y) x

/-- A transit line is bundled as soon as its mirror acknowledgment has come (R180). -/
def transitBundle (c : Core) (t : Trk) : Core :=
  match dirtyLoc c t.req.line with
  | some (_, _, _, l) =>
    if l.use == .transit && l.bundle.isNone && !l.pin then (bundleNew c t.slice 1 true [t.req.line] (some t.idx) none false).2 else c
  | none => c

/-- Durability that the completion waits for (R98, R100, R107, R180, R195, R197). -/
def stDur (x : Core × Trk) : Core × Trk :=
  let c := transitBundle x.1 x.2
  let t := x.2
  if t.durDone ∨ t.bundle.isSome then (c, t)
  else if t.stat.isErr ∨ c.ending then (c, { t with durDone := true })
  else
    let write := isWrite t && t.wrote && (t.strict || t.transit || t.rtype == 2 || lcOffMode c)
    let persist := (t.req.op == .persist || (t.req.op == .pug && t.req.aux == 5)) && t.rtype != 2
    if write ∨ persist then
      if (dirtyValue c t.req.line).isNone then (c, { t with durDone := true })
      else if linePinned c t.req.line then (c, { t with durDone := true, stat := .errExhausted })
      else
        let r := urgentBundle c t.slice t.req.line (some t.idx) none false
        match r.1 with
        | some id => (r.2, { t with bundle := some id, st := .durable })
        | none =>
          let st := if linePinned r.2 t.req.line then .errExhausted else t.stat
          (r.2, { t with durDone := true, stat := st })
    else if t.req.op == .pug && t.req.aux == 2 then
      if (dirtyValue c t.req.line).isNone ∨ linePinned c t.req.line then (c, { t with durDone := true })
      else
        let r := match lineBundle c t.req.line with
          | some id => (some id, c)
          | none => bundleNew c t.slice 3 false [t.req.line] (some t.idx) (some t.req.shint) false
        match r.1 with
        | some id => (r.2, { t with bundle := some id, st := .durable })
        | none => (r.2, { t with durDone := true })
    else (c, { t with durDone := true })

/-! ### Completion and release. -/

/-- PUG_STATUS, PUG_PROG, PUG_ERRS of job j. -/
def pugBase (j : Nat) : Nat := 0x30000 + 0x40 * j

/-- A Pug job ends when every line is issued, or issue has stopped, and nothing is in flight (R201). -/
def pugEnd (c : Core) (j : Nat) : Core :=
  let p := mget c.pug j {}
  if p.busy && (p.issued || p.aborting) && p.inFlight == 0 && p.waits == [] then
    let b := if p.issued && !p.aborting then 1 else 2
    let c := hwSet { c with pug := mput c.pug j { p with busy := false, aborting := false } } (pugBase j + 0x1C) b
    let ctl := regv c (pugBase j + 0x18)
    if ctl.getLsbD 7 then ring c (fld ctl 6 5) (16 + j) else c
  else c

/-- A line counts as an error of a Pug job (R198). -/
def pugErr (c : Core) (j : Nat) : Core :=
  hwSet (ctrSat c (pugBase j + 0x28) 16 1) (pugBase j + 0x1C) 3

/-- A line of a Pug job is done (R197). -/
def pugDone (c : Core) (j : Nat) : Core :=
  let p := mget c.pug j {}
  pugEnd (ctrAdd { c with pug := mput c.pug j { p with inFlight := p.inFlight - 1 } } (pugBase j + 0x20) 48 1) j

/-- Release a line: the tracker entry becomes FREE, the close notice leaves, a reserved way and unused attached write-backs are given
back (R81, R119, R127, R151). -/
def release (c : Core) (t : Trk) : Core :=
  let c := trkDel c t
  let mates := c.arr.trk.filter (fun x => x.second && x.slice == t.slice && x.mate == some t.idx)
  let c := { c with fab := { c.fab with closeN := c.fab.closeN ++ (t :: mates).map (fun (x : Trk) => (x.slice, x.idx)) } }
  let c := { c with arr := { c.arr with
    resv := c.arr.resv.filter (fun r => !(r.1 == t.slice && r.2.2.2 == t.idx))
    trk := (c.arr.trk.filter (fun x => !(x.second && x.slice == t.slice && x.mate == some t.idx))).map (fun x =>
      if x.st == .attached && x.slice == t.slice && x.mate == some t.idx then { x with st := .deferred, mate := none } else x) } }
  ((t :: mates).filter (fun x => x.slot)).foldl (fun c x => passSlot c x.req.line) c

/-- Whether the completion carries ACKREQ = 1 (R82, R102, R108). -/
def wantsAck (t : Trk) : Bool :=
  !t.stat.isErr && (isDirect t.req || t.grant != .i)

/-- The home's completion of a request (R82, R102, R108, R115). -/
def completion (t : Trk) : Cmp :=
  let dataOp := match t.req.op with
    | .rdShared | .rdUnique | .rdOnce | .load | .loadRes => true
    | .cleanUnique => !t.noData
    | _ => false
  let d := t.data.getD 0
  let pois := dataOp && t.poison && !t.stat.isErr
  let body := if t.req.op == .load || t.req.op == .loadRes then selectLine t.req.be d else d
  { dst := t.req.src, tag := t.req.tag, line := t.req.line, phys := t.phys, trk := t.idx
    data := if dataOp then some (if t.stat.isErr then 0 else body) else none
    stat := if pois then .okPoison else t.stat, poison := pois
    gst := if t.stat.isErr then .i else t.grant
    res := t.req.op == .storeCond && t.res, ackreq := wantsAck t }

/-- The last act of an internal action: a back-invalidation frees its entry and reserves the way (R114, R127); a sweep counts its line
(R157); a Pug line is done (R197). -/
def stInternal (c : Core) (t : Trk) : Core :=
  match t.req.op with
  | .backInval =>
    match t.mate, t.way with
    | some m, some w =>
      let k := (t.slice, sfSet t.req.line, w, m)
      match trkGet c t.slice m with
      | some u => if u.victim && c.arr.resv.contains k then trkPut c { u with way := some w }
          else { c with arr := { c.arr with resv := c.arr.resv.filter (fun r => r != k) } }
      | none => { c with arr := { c.arr with resv := c.arr.resv.filter (fun r => r != k) } }
    | _, _ => c
  | .sweep =>
    { c with arr := { c.arr with lost := c.arr.lost.map (fun x =>
        if x.slice = t.slice ∧ x.set = sfSet t.req.line then { x with lines := x.lines + 1 } else x) } }
  | .pug =>
    let j := t.req.shint
    let c := countOp c epPug (if t.req.aux = 5 then .persist else .pug) t.t0
    let c := if t.stat.isErr then pugErr c j else c
    if t.req.aux = 0 ∧ !t.stat.isErr then
      match lineBundle c t.req.line with
      | some id =>
        let p := mget c.pug j {}
        { c with pug := mput c.pug j { p with waits := p.waits ++ [(t.req.line, id)] } }
      | none => pugDone c j
    else pugDone c j
  | _ => c

/-- CLEAN_INVALIDATE removes the line once it is durable (R197); an uncached or DEVICE write leaves no copy (R100, R180). -/
def stLeave (c : Core) (t : Trk) : Core :=
  let gone := (t.req.op == .pug && t.req.aux == 2) || (isWrite t && (t.rtype == 2 || lcOffMode c))
  if gone && !t.stat.isErr && !linePinned c t.req.line then
    match lcFind c t.slice t.req.line with
    | some w =>
      let l := lcRd c (physOf c t.slice) (lcSet t.req.line) w
      if l.use == .clean then lcFree c (physOf c t.slice) (lcSet t.req.line) w else c
    | none => c
  else c

/-- The home meters a completed read (R440, Q 1). -/
def meterRead (c : Core) (t : Trk) : Core :=
  let rd := match t.req.op with
    | .rdShared | .rdUnique | .rdOnce | .load | .loadRes => true
    | .cleanUnique => !t.noData
    | _ => false
  if rd && !t.stat.isErr && decide (t.rgn < 16) then
    { c with fab := { c.fab with meters := c.fab.meters ++ [{ meter := rgnMeter (rgnCur c t.rgn), q := 1, amount := 64 }] } }
  else c

/-- Send the completion, or end without one, and release where no ACK is awaited (R81). -/
def stDone (x : Core × Trk) : Core :=
  let c := stLeave x.1 x.2
  let t := x.2
  if t.second then trkPut c { t with st := .ackWait }
  else if isInternal t ∨ t.req.op == .pug then release (stInternal c t) t
  else if c.ending then
    release (if t.req.op == .store then cmpPush c { completion t with ackreq := false } else c) t
  else if t.forwarded && !t.stat.isErr then
    let c := meterRead c t
    if t.acked then release c t else trkPut c { t with st := .ackWait }
  else if t.cmpSent then (if t.acked then release c t else trkPut c { t with st := .ackWait })
  else
    let c := if 106 ≤ t.req.src ∧ t.req.src < 110 then countOp c t.req.src t.req.op t.t0 else c
    let c := cmpPush (holdWb (meterRead c t) t.req) (completion t)
    if wantsAck t then trkPut c { t with cmpSent := true, st := .ackWait } else release c t

/-- The mate entry of a LOAD_RES is ready (R109). -/
def mateReady (c : Core) (t : Trk) : Bool :=
  match t.mate with
  | some m => if t.req.op == .loadRes && !t.second then
      (match trkGet c t.slice m with | some u => u.st == .ackWait | none => true) else true
  | none => true

/-- A transaction that awaits its ACK still takes the write-backs that join it, and releases its line once everything is in (R81). -/
def advanceAck (c : Core) (t : Trk) : Core :=
  let x := stDrop (stJoin (c, t))
  let x := if x.2.dirtyIn.isSome then ((stIn x).1, { (stIn x).2 with st := .ackWait }) else x
  let x := stWbs x
  if x.2.acked && ackedAll x.2 && x.2.dirtyIn.isNone && x.2.leave == [] then release x.1 x.2 else trkPut x.1 x.2

/-- The stages of a transaction that has passed LOOKUP, as far as its waits allow. -/
def advanceStages (c : Core) (t : Trk) : Core :=
  if t.st == .ackWait then advanceAck c t
  else
    let x := stWbs (stIn (stDrop (stFwd (stNew (stJoin (c, { t with st := .gather }))))))
    if x.2.dirtyIn.isSome then trkPut x.1 x.2
    else if gathering x.2 then trkPut x.1 { x.2 with st := .gather }
    else
      let x := stData x
      if filling x.2 then trkPut x.1 { x.2 with st := .gather }
      else
        let x := stOwn x
        if x.2.st == .place then trkPut x.1 x.2
        else
          let x := stLate x
          if gathering x.2 || x.2.lateFilter then trkPut x.1 { x.2 with st := .gather }
          else if !ackedAll x.2 then trkPut x.1 { x.2 with st := .mirror }
          else
            let x := stDur (stWbs x)
            if !x.2.durDone then trkPut x.1 { x.2 with st := .durable }
            else if !mateReady x.1 x.2 then trkPut x.1 { x.2 with st := .mirror }
            else stDone x

/-- A filter-copy write and a mirror write of one flow leave in one message and are acknowledged together (R87). `old` is the core before
the flow. -/
def pairUp (old c : Core) (s idx : Nat) : Core :=
  match (c.fab.mirW.drop old.fab.mirW.length).find? (fun m => m.slice == s && m.trk == idx),
    (c.fab.filtW.drop old.fab.filtW.length).find? (fun f => f.slice == s && f.trk == idx), trkGet c s idx with
  | some m, some f, some t =>
    trkPut { c with fab := { c.fab with
        mirW := c.fab.mirW.map (fun x => if x = m then { m with filt := some f } else x), filtW := c.fab.filtW.erase f } }
      { t with fcopies := t.fcopies - 1, both := true }
  | _, _, _ => c

/-- Carry a transaction that has passed LOOKUP as far as its waits allow. -/
def advance (c : Core) (t : Trk) : Core := pairUp c (advanceStages c t) t.slice t.idx

/-! ### Sets that fail their check (R153, R155, R158, R160). -/

/-- A set comes under the Bourdon: the alarm and event are raised and its sweep starts, or starts again (R155); a set beyond 256 takes no slot and raises
BOURDON_FULL (R158). -/
def coverSet (c : Core) (s si : Nat) : Core :=
  let c := alarmEvent c 2 0x303 [wd s, wd si]
  if (setLost c s si).isSome then
    { c with arr := { c.arr with lost := c.arr.lost.map (fun x => if x.slice = s ∧ x.set = si then { x with next := 0 } else x) } }
  else
    let room := decide ((c.arr.lost.filter (fun x => x.covered)).length < 256)
    let c := { c with arr := { c.arr with
      lost := c.arr.lost ++ [{ slice := s, set := si, covered := room, waited := !room, lastAt := now c }] } }
    if room then c else alarm c 3

/-- Ways lost in both copies become INVALID in both, and the set comes under the Bourdon (R155). -/
def loseWays (c : Core) (s si : Nat) (ways : List Nat) : Core :=
  if ways = [] then c
  else coverSet (ways.foldl (fun c w => { c with arr := { c.arr with
    sfHome := mdel c.arr.sfHome (sfKey s si w), sfPart := mdel c.arr.sfPart (sfKey s si w) } }) c) s si

/-- The byte address logged for a failing filter way. -/
def wayAddr (c : Core) (s si w : Nat) : Nat := sfLine si (eTag (sfRd c s si w).bits) (eLtag (sfRd c s si w).bits) * 64

/-- Before an entry of a set is used: true where the set must first be recovered, or is being recovered (R153). While one copy only is
kept a failed way is lost at once (R160). Of several failing ways the lowest is logged (assumption 84). -/
def setGuard (c : Core) (s line : Nat) : Bool × Core :=
  let si := sfSet line
  if above16T line then (false, c)
  else if setHeld c s si then (true, c)
  else if sfSetOk c s si then (false, c)
  else
    let bad := (List.range 16).filter (fun w => !sfWordOk c.dom.inst (sfRd c s si w))
    let c := arrayError c { cat := 2, kind := 1, unit := 33 + physOf c s, way := bad.getD 0 0, set := si
                            addr := some (wayAddr c s si (bad.getD 0 0)) }
    if oneCopy c s then (false, loseWays c s si bad)
    else (true, { c with arr := { c.arr with setRec := c.arr.setRec ++ [{ slice := s, set := si, t0 := now c }] } })

/-! ### Write-backs (R105, R106, R118, R119, R123). -/

/-- A write-back acts on a line that is free (R118): it writes its data, leaves the filter and completes. -/
def wbAct (c : Core) (t : Trk) : Core :=
  let s := t.slice
  let line := t.req.line
  let who := (sharerIdx t.req.rid).getD 127
  let ty := lineType c line
  let dirty := t.req.op == .wbDirty
  let t := { t with st := .gather, passed := true, rtype := ty }
  if ty = 0 ∨ (ty = 3 ∧ !wareIn c line) then stDone (c, { t with stat := .errDecode, durDone := true })
  else if ty = 2 ∨ ty = 3 then stDone (c, { t with stat := .errProtect, durDone := true })
  else if c.ending then advance c { t with dirtyIn := if dirty then some (t.req.data, t.req.poison) else none }
  else if (setGuard c s line).1 then trkPut (setGuard c s line).2 { t with st := .lookup, passed := false }
  else
    let c := (setGuard c s line).2
    let lost := (setLost c s (sfSet line)).isSome
    let c := lcCheck c s line
    match sfView c s line with
    | .excl w h =>
      if h = who then
        let y := entWrite c { t with dirtyIn := if dirty then some (t.req.data, t.req.poison) else none } w 0
        advance y.1 y.2
      else wbStray c t dirty lost none who
    | .shared w l =>
      if l.contains who then
        let e := (sfRd c s (sfSet line) w).bits
        if dirty then wbStray c t dirty false (some (w, entDrop e who)) who
        else
          let y := if entDrop e who = e then (c, t) else entWrite c t w (entDrop e who)
          advance y.1 y.2
      else wbStray c t dirty lost none who
    | .uncached => wbStray c t dirty lost none who
where
  /-- A write-back from a sender the entry does not list, or lists only as a sharer (R123). That of a span proxy sets no flag, since no port's
  page has one, and its event names the gateway's endpoint (assumption 85). -/
  wbStray (c : Core) (t : Trk) (dirty lost : Bool) (drop : Option (Nat × BitVec 56)) (who : Nat) : Core :=
    if dirty && lost then advance c { t with dirtyIn := some (t.req.data, t.req.poison) }
    else if dirty then
      let c := if who < 64 then
          event (portFlag c (0x80000 + 0x1000 * portOfAgent who) 3) 0x202
            [wd (epC (portOfAgent who)), 4, loW (t.req.line * 64), hiW (t.req.line * 64), wd who]
        else event c 0x202 [wd (epG (pfBank t.req.line)), 4, loW (t.req.line * 64), hiW (t.req.line * 64), wd who]
      match drop with
      | some (w, e) =>
        if e = (sfRd c t.slice (sfSet t.req.line) w).bits then advance c t
        else
          let y := entWrite c t w e
          advance y.1 y.2
      | none => advance c t
    else advance c t

/-- A write-back acts; its filter change travels with its mirror write (R87, R118). -/
def wbStart (c : Core) (t : Trk) : Core := pairUp c (wbAct c t) t.slice t.idx

/-- A WB_DIRTY or EVICT_CLEAN reaches its home and takes a write-back entry: it acts, joins the busy transaction or waits beside it
(R118, R119). It takes none of the line slots of R131 (R132; assumption 85). Answers none where the pool is empty (R77). -/
def wbArrive (c : Core) (r : Req) : Option Core :=
  let s := sliceOf c r.line
  match trkFree c s .writeback with
  | none => none
  | some idx =>
    let who := (sharerIdx r.rid).getD 127
    match c.arr.trk.find? (fun t => trkHolds t r.line) with
    | none =>
      if c.arr.trk.any (fun t => t.st == .deferred && t.req.line == r.line) then some (trkAdd c s idx .writeback r .deferred)
      else
        let c := trkAdd c s idx .writeback r .gather
        match trkGet c s idx with
        | some t => some (wbStart c t)
        | none => some c
    | some t =>
      if wbJoins t who then
        let c := trkAdd c s idx .writeback r .attached
        match trkGet c s idx with
        | some b =>
          let y := wbAttach c t b
          some (trkPut y.1 y.2)
        | none => some c
      else some (trkAdd c s idx .writeback r .deferred)

/-- A deferred write-back whose line has been released starts (R119). -/
def startDeferred (c : Core) : Core :=
  match c.arr.trk.find? (fun t => t.st == .deferred && !lineBusy c t.req.line) with
  | some t => wbStart (trkPut c { t with st := .gather }) { t with st := .gather }
  | none => c

/-- Advance every transaction once. -/
def advanceAll (c : Core) : Core :=
  c.arr.trk.foldl (fun c t0 => match trkGet c t0.slice t0.idx with
    | some t => if t.passed then advance c t else c
    | none => c) c

/-- Let every transaction go as far as its waits allow; deferred write-backs follow in order of arrival. -/
def settleN : Nat → Core → Core
  | 0, c => advanceAll c
  | n + 1, c => settleN n (startDeferred (advanceAll c))

/-- As many rounds as there are entries that could start, and two for entries that wait on each other. -/
def settle (c : Core) : Core := settleN ((c.arr.trk.filter (fun t => t.st == .deferred)).length + 2) c

end Sys2Proof.Machine
end

