-- ==== Sys2Proof/Machine/Lookup.lean ====
section
/-! DEFINITION. LOOKUP at the home: Ware lines, error completions, reservations and the decision tables of R102, R108, R133 and R197;
and the arrival of a request at its slice (R77, R83, R99 to R115, R126, R131, R190, R219 to R223). -/

namespace Sys2Proof.Machine

/-! ### Ware lines (R101, R188 to R193). -/

/-- The location of a Ware line: slice, set, way (R189). -/
def wareLoc (wl : Nat) : Nat × Nat × Nat := (wl % 32, wl / 32 % 2048, 15 - wl / 65536)

/-- The bytes of a Ware line and whether it is poisoned; both are free values until every byte has been written (R190). -/
def wareRead (c : Core) (wl : Nat) : Line × Bool × Core :=
  let x := mget c.arr.ware wl {}
  if x.known = beAll then (x.data, x.bad, c)
  else
    let k := takeFree c
    (lineOf ((List.range 64).map (fun i => Config.wareByte wl i k.1)), Config.warePoison wl k.1, k.2)

/-- Store bytes into a Ware line; a flip armed for category 11 poisons it (R364), and only a write of the whole line clears earlier poison (R40).
Answers whether it wrote into a poisoned word, which is open until every byte has been written (R101, R190). -/
def wareWrite (c : Core) (wl : Nat) (be : BEn) (d : Line) (p whole : Bool) : Bool × Core :=
  let x := mget c.arr.ware wl {}
  let fl := flipArmed c 11
  let c := if fl then flipFire c else c
  let y : WareLine := {
    data := mergeLine be d x.data, known := x.known ||| be, bad := p || fl || (x.bad && !whole) }
  let old := if x.known = beAll then (x.bad, c) else (Config.warePoison wl (takeFree c).1, (takeFree c).2)
  (old.1, { old.2 with arr := { old.2.arr with ware := mput old.2.arr.ware wl y } })

/-- A Ware word is found bad (R193, R402). -/
def wareError (c : Core) (line wl : Nat) : Core :=
  let l := wareLoc wl
  arrayError c { cat := 11, kind := 5, unit := 33 + physOf c l.1, way := l.2.2, set := l.2.1, addr := some (lineAddr line) }

/-- A request for a line of the Ware window acts at LOOKUP and completes (R101). -/
def wareOp (c : Core) (t : Trk) : Core :=
  let wl := wareOff c t.req.line
  let lo := wareLoc wl
  let dead := lcDisabled c (physOf c lo.1) lo.2.1 lo.2.2
  let read := t.req.op == .rdOnce || t.req.op == .load
  let write := t.req.op == .wrFull || t.req.op == .wrPartial || t.req.op == .store || (t.req.op == .pug && t.req.aux == 4)
  let be := if t.req.op == .wrFull || t.req.op == .pug then beAll else t.req.be
  if read then
    let r := wareRead c wl
    let bad := r.2.1 || dead
    let c := if r.2.1 then wareError r.2.2 t.req.line wl else r.2.2
    stDone (c, { t with data := some r.1, poison := bad, durDone := true })
  else if write then
    if dead then stDone (c, { t with stat := .okPoison, durDone := true })
    else
      let r := wareWrite c wl be t.req.data t.req.poison (t.req.op == .wrFull || t.req.op == .pug)
      stDone (r.2, { t with stat := if r.1 then .okPoison else .ok, durDone := true })
  else stDone (c, { t with durDone := true })

/-! ### Errors at LOOKUP (R61, R99, R115, R141, R262, R276). -/

/-- The requests that need the line's ownership or a reservation; DEVICE and WARE refuse them (R61). -/
def refusedTyped (o : Op) : Bool :=
  match o with
  | .rdShared | .rdUnique | .cleanUnique | .loadRes | .storeCond => true
  | _ => false

/-- The error status that a request meets at LOOKUP, if any. -/
def lookupStat (c : Core) (t : Trk) : Option Stat :=
  let o := t.req.op
  let line := t.req.line
  let ty := lineType c line
  let writes := o == .wrFull || o == .wrPartial || o == .store || o == .storeCond || (o == .pug && t.req.aux == 4)
  if o == .backInval || o == .sweep then none
  else if ty = 0 then some .errDecode
  else if ty = 3 ∧ !wareIn c line then some .errDecode
  else if ty ≠ 3 ∧ (bportOf c line).isNone then some .errDecode
  else if above16T line ∧ (o == .rdShared || o == .rdUnique || o == .cleanUnique || o == .loadRes) then some .errDecode
  else if ty ≠ 1 ∧ refusedTyped o then some .errProtect
  else if ty ≠ 3 ∧ wrefOf c line ∧ (writes || o == .rdUnique || o == .cleanUnique) then some .errExhausted
  else if ty ≠ 3 ∧ writes ∧ keyEmpty c line then some .errProtect
  else none

/-! ### Decisions (R102, R103, R104, R107, R108, R126, R133, R197). -/

/-- Wait for the write-back of the line's own holder (R103, R126); behind a closed port from which none is coming the data is lost (R125). -/
def awaitOwn (c : Core) (t : Trk) (h : Nat) (late : Bool) : Core × Trk :=
  let t := { t with holder := some h, snooped := [h], lateFilter := late }
  if h < 64 ∧ (cpGet c (portOfAgent h)).closed ∧ !wbComing c h t.req.line then closedLost c t h
  else (c, { t with awaitWb := [(h, now c)] })

/-- A read that shares the line (RD_SHARED). -/
def decideShared (c : Core) (t : Trk) (r : Nat) (v : View) : Core × Trk :=
  let mx := c.pol.exactMax
  let line := t.req.line
  let t := { t with grant := .s }
  match v with
  | .excl w h =>
    if h = r then awaitOwn c t h true
    else
      entWrite c { t with holder := some h, fwd := some (h, .snpFwdShared), forwarded := true } w (entShared mx line [h, r])
  | .shared w _ =>
    let e := (sfRd c t.slice (sfSet line) w).bits
    entWrite c t w (entAdd mx line e r)
  | .uncached => entSet c t (entShared mx line [r])

/-- A read or upgrade for ownership (RD_UNIQUE, CLEAN_UNIQUE). A CLEAN_UNIQUE of the listed EXCLUSIVE holder gets data (R104; assumption
86). -/
def decideUnique (c : Core) (t : Trk) (r : Nat) (v : View) : Core × Trk :=
  let line := t.req.line
  let t := { t with grant := .e }
  match v with
  | .excl w h =>
    if h = r then awaitOwn c t h false
    else
      entWrite c { t with holder := some h, fwd := some (h, .snpFwdUnique), forwarded := true } w (entExcl line r)
  | .shared w l =>
    let t := { t with noData := t.req.op == .cleanUnique && l.contains r }
    let y := entWrite c t w (entExcl line r)
    snoopAll y.1 y.2 (l.filter (fun i => i != r)) .snpInval
  | .uncached => entSet c t (entExcl line r)

/-- A read that leaves no copy, and PERSIST (RD_ONCE, LOAD, LOAD_RES, PERSIST). -/
def decideRead (c : Core) (t : Trk) (me : Option Nat) (v : View) : Core × Trk :=
  match v with
  | .excl _ h =>
    if some h = me then
      if t.req.op = .persist then (c, t) else awaitOwn c t h true
    else
      snoopOne (c, { t with holder := some h, lateFilter := true }) h .snpShared
  | .shared _ _ => (c, t)
  | .uncached => (c, t)

/-- A write or RECALL: every copy is invalidated; a partial write brings an EXCLUSIVE holder's data back. -/
def decideWrite (c : Core) (t : Trk) (me : Option Nat) (v : View) (excl : Msg) : Core × Trk :=
  match v with
  | .excl _ h =>
    if some h = me then awaitOwn c t h true
    else
      snoopOne (c, { t with holder := some h, lateFilter := true }) h excl
  | .shared w l =>
    snoopAll (sfTouch c t.slice (sfSet t.req.line) w) { t with lateFilter := true } (l.filter (fun i => some i != me)) .snpInval
  | .uncached => (c, t)

/-- The broadcast snoop of a request for a line whose entry is lost (R133, R197). -/
def bcastMsg (t : Trk) : Option Msg :=
  match t.req.op with
  | .rdShared | .rdOnce | .load | .loadRes | .persist => some .snpShared
  | .rdUnique | .cleanUnique | .wrPartial | .store => some .snpUnique
  | .storeCond => if t.res then some .snpUnique else none
  | .wrFull => some .snpInval
  | .pug => if t.req.aux = 3 ∨ t.req.aux = 4 then some .snpInval else if t.req.aux = 5 then some .snpShared else none
  | _ => none

/-- The grant of a request (R102). -/
def grantOf (o : Op) : Gst :=
  match o with
  | .rdShared => .s
  | .rdUnique | .cleanUnique => .e
  | _ => .i

/-- Decide by the tables, for a NORMAL line. While transactions end for a flush or a warm
reset no snoop is sent (R243 step 4, R245, R253). -/
def decide1 (c : Core) (t : Trk) : Core × Trk :=
  let v := sfView c t.slice t.req.line
  let me := sharerIdx t.req.rid
  let lost := (setLost c t.slice (sfSet t.req.line)).isSome
  if c.ending then (c, t)
  else match lost, v, bcastMsg t with
  | true, .uncached, some m =>
    snoopAll c { t with bcast := true, lateFilter := true, grant := grantOf t.req.op } (bcastTo c me) m
  | _, _, _ =>
    match t.req.op with
    | .rdShared => decideShared c t (me.getD 127) v
    | .rdUnique | .cleanUnique => decideUnique c t (me.getD 127) v
    | .rdOnce | .load | .loadRes | .persist => decideRead c t me v
    | .wrFull => decideWrite c t me v .snpInval
    | .wrPartial | .store => decideWrite c t me v .snpUnique
    | .storeCond => if t.res then decideWrite c t me v .snpUnique else (c, t)
    | .pug =>
      if t.req.aux = 3 ∨ t.req.aux = 4 then decideWrite c t none v .snpInval
      else if t.req.aux = 5 then decideRead c t none v else (c, t)
    | _ => (c, t)

/-- The monitor's part of LOOKUP (R110, R129, R221, R223). -/
def lookupMon (c : Core) (t : Trk) : Core × Trk :=
  let s := t.slice
  let line := t.req.line
  match t.req.op with
  | .rdUnique | .cleanUnique | .wrFull | .wrPartial | .store => (monCancel c s line, t)
  | .storeCond =>
    let h := monHolds c s t.req.rid line
    if h.1 then (monCancel h.2 s line, { t with res := true }) else (monDrop h.2 s t.req.rid, t)
  | .loadRes => if t.second then (c, t) else (monSet c s t.req.rid line (fld (regv c (0x90400 + 0x1000 * (t.req.rid - 64))) 4 1), t)
  | .pug => if t.req.aux = 1 ∨ t.req.aux = 4 then (monCancel c s line, t) else (c, t)
  | _ => (c, t)

/-- The Pug actions that LOOKUP itself performs: CLEAN, INVALIDATE, and pinned lines passed over (R197, R198). -/
def lookupPug (c : Core) (t : Trk) : Core :=
  let j := t.req.shint
  let line := t.req.line
  if t.req.op ≠ .pug then c
  else if t.req.aux = 0 then
    if (dirtyLoc c line).isSome ∧ (lineBundle c line).isNone then
      (bundleNew c t.slice 3 false [line] none (some j) false).2
    else c
  else if t.req.aux = 1 then
    let d := (dirtyValue c line).isSome
    discardLine (if d then ctrSat c (pugBase j + 0x2C) 32 1 else c) line
  else c

/-- LOOKUP reaches a filter entry: its NRU bit is set (R150). -/
def sfReached (c : Core) (s line : Nat) : Core :=
  match sfFind c s line with
  | some w => sfTouch c s (sfSet line) w
  | none => c

/-- The second entry of a LOAD_RES goes to a state of the line queue with the first (R109). -/
def mateTo (c : Core) (t : Trk) (st : TrkSt) : Core :=
  match t.mate with
  | some m => if t.req.op = .loadRes then (match trkGet c t.slice m with | some u => trkPut c { u with st := st } | none => c) else c
  | none => c

/-- The second entry of a LOAD_RES passes LOOKUP with the first (R109). -/
def lookupSecond (c : Core) (s idx : Nat) (ty : Nat) : Core :=
  match trkGet c s idx with
  | some u =>
    let y := decide1 (sfReached c s u.req.line) { u with passed := true, st := .gather, rtype := ty }
    trkPut y.1 y.2
  | none => c

/-- A read of a line that misses meets an EMPTY key slot at LOOKUP (R115): where the holder's data or a broadcast answer could serve it, the
fill decides. -/
def keyRefuses (c : Core) (t : Trk) : Bool :=
  let s := t.slice
  let line := t.req.line
  let lost := (setLost c s (sfSet line)).isSome
  let wants := match t.req.op, sfView c s line with
    | _, .excl _ _ => false
    | _, .uncached => !lost && needsData t
    | .cleanUnique, .shared _ l => !((sharerIdx t.req.rid).any (fun i => l.contains i))
    | _, .shared _ _ => needsData t
  wants && !isWrite t && keyEmpty c line && (lcFind c s line).isNone && (heldOf c line).isNone

/-- A request ends at LOOKUP with an error (R115, R276). -/
def lookupErr (c : Core) (t : Trk) (e : Stat) : Core :=
  let c := if t.req.op = .storeCond then monDrop c t.slice t.req.rid else c
  let c := trkPut c { t with passed := true, stat := e }
  stDone (c, { t with passed := true, stat := e, durDone := true, noData := true, st := .gather })

/-- A line's requests go through the Bourdon (R130). -/
def covered (c : Core) (s line : Nat) : Bool :=
  sliceCovered c s || (lineType c line == 1 && !above16T line && (setLost c s (sfSet line)).isSome)

/-- The second line of a LOAD_RES is covered and holds no slot yet (R109, R131). -/
def mateWaits (c : Core) (t : Trk) : Bool :=
  t.req.op == .loadRes && covered c t.slice (t.req.line ^^^ 1) &&
    (match t.mate with | some m => (trkGet c t.slice m).any (fun u => !u.slot) | none => false)

/-- A request passes LOOKUP: it holds its line, or its Bourdon slot. -/
def lookup (c : Core) (t : Trk) : Core :=
  let s := t.slice
  let line := t.req.line
  let ty := lineType c line
  let t := { t with rtype := ty, rgn := (rgnIndex c line).getD 16
                    strict := decide (ty = 1) && rgnStrict (rgnCur c ((rgnIndex c line).getD 16)) }
  let pref := t.req.op == .prefetch
  let drop := fun (c : Core) => trkDel (ctrAdd c (0x100310 + 0x10000 * s) 32 1) t
  let g := setGuard c s line
  let g := if g.1 || t.req.op != .loadRes then g else setGuard g.2 s (line ^^^ 1)
  if g.1 then mateTo (trkPut g.2 { t with st := .lookup }) t .lookup
  else
    let had := (lcFind g.2 s line).isSome
    let c := if ty = 3 then lcTags g.2 s (wareLoc (wareOff g.2 line)).2.1 else lcCheck g.2 s line
    let c := if t.req.op = .loadRes then lcCheck c s (line ^^^ 1) else c
    let t := { t with refetch := had && (lcFind c s line).isNone }
    match lookupStat c t with
    | some e =>
      if pref then drop c
      else
        let told := e = .errProtect ∧ keyEmpty c line ∧ ty ≠ 3 ∧ !refusedTyped t.req.op
        lookupErr (if told then keyEmptyTold c line else c) t e
    | none =>
      if ty = 3 then (if pref then drop c else wareOp c { t with passed := true, st := .gather })
      else if (covered c s line && !t.slot) || mateWaits c t then
        (if pref then drop c else mateTo (trkPut c { t with st := .bourdon }) t .queued)
      else
        let owned := match sfView c s line with
          | .excl _ _ => true
          | _ => false
        if pref && ((lcFind c s line).isSome || (heldOf c line).isSome || ty != 1 || lcOffMode c || owned || keyEmpty c line) then drop c
        else if ty = 1 ∧ keyRefuses c t then lookupErr (keyEmptyTold c line) t .errProtect
        else if t.req.op = .pug ∧ t.req.aux ≠ 1 ∧ linePinned c line then
          release (stInternal c { t with stat := .errExhausted }) t
        else
          let c := if ty = 1 then sfReached c s line else c
          let y := lookupMon c { t with passed := true, st := .gather }
          let c := lookupPug y.1 y.2
          let c := match y.2.mate with
            | some m => if y.2.req.op = .loadRes then lookupSecond c s m ty else c
            | none => c
          let z := if ty = 1 then decide1 c y.2 else (c, y.2)
          let z := if z.2.holder.isNone && !(z.2.bcast && keyEmpty c line) then stData z else z
          advance (trkPut z.1 z.2) z.2

/-- A request at the head of its line's queue passes LOOKUP, if every line it needs is free (R78, R83, R109). -/
def tryLookup (c : Core) (t : Trk) : Core :=
  let mate : Option Nat := match t.mate with
    | some m => (trkGet c t.slice m).map (fun u : Trk => u.req.line)
    | none => none
  let blocked : Nat → Bool := fun l => lineBusy c l || olderWaits c t l
  if t.st != .queued || t.second || sliceStops c t.slice || blocked t.req.line || (mate.map blocked).getD false then c
  else lookup c t

/-- A message of a source passes no older one of its class for the same line (R50). -/
def firstOf (c : Core) (r : Req) : Bool :=
  (c.fab.reqs.takeWhile (fun x => !(x.src == r.src && x.tag == r.tag && x.op == r.op))).all (fun x =>
    !(x.src == r.src && x.line == r.line && (x.op == .wbDirty || x.op == .evictClean) == (r.op == .wbDirty || r.op == .evictClean)))

/-- Remove a request from those in flight. -/
def reqTaken (c : Core) (r : Req) : Core :=
  { c with fab := { c.fab with reqs := c.fab.reqs.erase r } }

/-- Requests for a slice wait while a table change moves it (R339 step 2). -/
def destHeld (c : Core) (line : Nat) : Bool := c.fabric.quiesce && c.fabric.dests.contains (sliceOf c line)

/-- A request of a given kind reaches its home slice, or one that waits in the line queue there tries LOOKUP again. A message that
finds its pool empty waits at the slice's input (R77). -/
def homeReq (ops : List Op) (c : Core) (src tag : Nat) : Core :=
  match c.fab.reqs.find? (fun r => r.src == src && r.tag == tag && ops.contains r.op) with
  | some r =>
    let s := sliceOf c r.line
    if !firstOf c r || destHeld c r.line then c
    else if r.op = .prefetch then
      if poolFree c s .general < 32 ∨ c.arr.trk.any (fun t => t.req.line == r.line) = true then
        ctrAdd (reqTaken c r) (0x100310 + 0x10000 * s) 32 1
      else homeEnter c r s
    else homeEnter c r s
  | none =>
    match trkOfReq c src tag with
    | some t => if ops.contains t.req.op then settle (tryLookup c t) else c
    | none => c
where
  /-- Take one general entry, or two for a LOAD_RES, when its turn has come (R77, R109, R137). -/
  homeEnter (c : Core) (r : Req) (s : Nat) : Core :=
    let p := poolTurn c s .general (waitMsg r) (if r.op = .loadRes then 2 else 1)
    let c := p.2
    match (if p.1 then trkFree c s .general else none) with
    | none => c
    | some idx =>
      let c1 := trkAdd (reqTaken c r) s idx .general r .queued
      if r.op = .loadRes then
        match trkFree c1 s .general with
        | none => c
        | some i2 =>
          let c2 := trkAdd c1 s i2 .general { r with line := r.line ^^^ 1 } .queued
          match trkGet c2 s idx, trkGet c2 s i2 with
          | some a, some b =>
            let c3 := trkPut (trkPut c2 { a with mate := some i2 }) { b with mate := some idx, second := true }
            settle (tryLookup c3 { a with mate := some i2 })
          | _, _ => c
      else match trkGet c1 s idx with
        | some t => settle (tryLookup c1 t)
        | none => c

end Sys2Proof.Machine
end

