-- ==== Sys2Proof/Machine/Run.lean ====
section
/-! DEFINITION. How a command that acts on the data side of the block answers: a next state with the data side changed. A block that is
OFF has no data side to act on (R384). -/

namespace Sys2Proof.Machine

/-- Change the data side; in OFF nothing of it acts (R384, R465). -/
def onCore (s : State) (f : Core → Core) : Host.Outcome State Fault Refusal :=
  if s.core.st.cur = .off then .next s else .next { s with core := f s.core }

/-- Change the whole machine; in OFF nothing of it acts. -/
def onState (s : State) (f : State → State) : Host.Outcome State Fault Refusal :=
  if s.core.st.cur = .off then .next s else .next (f s)

end Sys2Proof.Machine
end

