-- ==== Sys2Proof/Machine/Answers.lean ====
section
/-! DEFINITION. What reaches a home after LOOKUP: snoop answers, write-backs, ACKs, partner messages, set recovery, victims, sweeps and
Bourdon slots (R80, R87 to R91, R95 to R97, R114, R119 to R128, R131, R151 to R160). -/

namespace Sys2Proof.Machine

/-- Requests that wait at the Bourdon for lines of a set go back to their line queue (R134, R157). -/
def uncover (c : Core) (p : Trk → Bool) : Core :=
  { c with arr := { c.arr with trk := c.arr.trk.map (fun t =>
      if t.st == .bourdon && p t then { t with st := .queued, slot := false, full := false } else t) } }

/-- A sweep whose last line has been answered ends (R157); of the lost sets that wait for a set slot the one lost first takes the one that is
freed (R158; the order is the model's: assumption 84). -/
def sweepEnd (c : Core) : Core :=
  match c.arr.lost.find? (fun x => x.covered && decide (x.next = 2 ^ 26) &&
      !(c.arr.trk.any (fun t => t.req.op == .sweep && t.slice == x.slice && sfSet t.req.line == x.set))) with
  | none => c
  | some x =>
    let rest := c.arr.lost.erase x
    let rest := match rest.find? (fun y => !y.covered) with
      | some y => rest.map (fun z => if z = y then { z with covered := true, lastAt := now c } else z)
      | none => rest
    let c := { c with arr := { c.arr with lost := rest } }
    let c := uncover c (fun t => t.slice == x.slice && sfSet t.req.line == x.set)
    event c 0x304 [wd x.slice, wd x.set, wd x.lines]

/-- An internal tracker entry for an action of the home's own on a line that is free (R77, R114). -/
def internalReq (op : Op) (slice idx line : Nat) : Req :=
  { op := op, src := 1000, tag := slice * 256 + idx, rid := 127, line := line }

/-- While this instance leaves, its homes send SNP_INVAL to every proxy sharer of an entry whose line is free (R321 step 2). -/
def leaveWay (c : Core) (s si w : Nat) : Core :=
  let e := (sfRd c s si w).bits
  let l := (eSharers c e).filter (fun i => decide (64 ≤ i))
  let line := eLine c si e
  if eState e = 0 ∨ l = [] ∨ lineBusy c line = true ∨ setHeld c s si = true then c
  else match trkFree c s .internal with
    | none => c
    | some idx =>
      let c := trkAdd c s idx .internal (internalReq .backInval s idx line) .gather
      match trkGet c s idx with
      | some t =>
        let y := snoopAll c { t with passed := true, rtype := 1, lateFilter := true
                                     holder := if eState e = 2 then l.head? else none } l .snpInval
        trkPut y.1 y.2
      | none => c

/-- Step 2 of an orderly leave goes on (R321). -/
def leaveStep (c : Core) : Core :=
  if !isLeaving c c.dom.inst then c
  else settle ((c.arr.sfHome.map (fun p => (p.1 / 65536, p.1 / 16 % 4096, p.1 % 16))).foldl (fun c k => leaveWay c k.1 k.2.1 k.2.2) c)

/-! ### Back-invalidation and retirement (R114, R127, R159, R160). -/

/-- An internal entry back-invalidates the entry in a way: it holds the line and snoops its holders, and the way is reserved for the transaction
that needs it (R114, R127). -/
def backInval (c : Core) (s si w : Nat) (forTrk : Option Nat) : Core :=
  match trkFree c s .internal with
  | none => c
  | some idx =>
    let e := (sfRd c s si w).bits
    let line := eLine c si e
    let c := match forTrk with
      | some m => { c with arr := { c.arr with resv := c.arr.resv ++ [(s, si, w, m)] } }
      | none => c
    let c := trkAdd c s idx .internal (internalReq .backInval s idx line) .gather
    let l := eSharers c e
    let c := ctrAdd (ctrAdd c (0x100408 + 0x10000 * s) 48 1) (0x100410 + 0x10000 * s) 48 l.length
    match trkGet c s idx with
    | some t =>
      let t := { t with
        passed := true, rtype := 1, mate := forTrk, way := some w, lateFilter := true
        holder := if eState e = 2 then l.head? else none }
      let y := snoopAll c t l .snpInval
      trkPut y.1 y.2
    | none => c

/-- A filter location of an array has no entry any more: it is retired, with the report of R30 (R159). -/
def sfRetireDone (c : Core) (k : Nat × Nat × Nat × Nat) : Core :=
  retired { c with arr := { c.arr with
      retiring := c.arr.retiring.filter (fun r => r != k), retired := (k.1, k.2.2.1, k.2.2.2) :: c.arr.retired } }
    { cat := 2, kind := 4, unit := 33 + k.1 / 2, way := k.2.2.2, set := k.2.2.1 } k.2.1

/-- A filter location that is to leave service: its entry moves to a free way in both copies, or is back-invalidated, or waits until its line and
its set are free (R159). -/
def sfRetire (c : Core) (k : Nat × Nat × Nat × Nat) : Core :=
  let s := k.2.1
  let si := k.2.2.1
  let e := (sfRd c s si k.2.2.2).bits
  let line := eLine c si e
  if setHeld c s si || sfReserved c s si k.2.2.2 then c
  else if eState e = 0 then sfRetireDone c k
  else if lineBusy c line then c
  else match sfFree c s si with
    | some v => sfRetireDone (sfPut (sfPut c s noTrk line v e).1 s noTrk line k.2.2.2 0).1 k
    | none => backInval c s si k.2.2.2 none

/-- Filter locations that wait to leave service try again. -/
def sfRetireAll (c : Core) : Core := c.arr.retiring.foldl sfRetire c

/-- A filter location of array a fails a check: the third time within 2^24 TB ticks it leaves service; where that were the fifth of its set,
replacement is requested instead (R159, R160). -/
def sfFailed (c : Core) (a s si w : Nat) : Core :=
  let recent := c.arr.fails.filter (fun f => f.1 == 1 && f.2.1 == a && f.2.2.1 == si && f.2.2.2.1 == w &&
    decide (now c < f.2.2.2.2 + 2 ^ 24))
  let c := { c with arr := { c.arr with fails := (1, a, si, w, now c) :: c.arr.fails } }
  if recent.length + 1 < 3 || c.arr.retired.contains (a, si, w) || c.arr.retiring.contains (a, s, si, w) then c
  else if !sfRetired c s si w && !sfRetiring c s si w && decide (4 ≤ sfOut c s si) then askReplace c (a / 2)
  else sfRetire { c with arr := { c.arr with retiring := c.arr.retiring ++ [(a, s, si, w)] } } (a, s, si, w)

/-- What follows every arrival at a home: its transactions go as far as they can, what waits to leave service tries again, finished sweeps end and
a leave goes on. -/
def carry (c : Core) : Core :=
  let c := lcWalk (settle (lcLeaveAll c))
  leaveStep (sweepEnd (if c.arr.retiring = [] then c else settle (sfRetireAll c)))

/-! ### ACKs (R81). -/

/-- The ACK of a request reaches its home (R81). -/
def homeAck (c : Core) (src tag : Nat) : Core :=
  match trkOfReq c src tag with
  | some t => if t.cmpSent || t.forwarded then carry (trkPut c { t with acked := true }) else c
  | none => c

/-! ### Snoop answers (R89 to R91, R118 to R125). -/

/-- An answer to a snoop. -/
inductive Ans where
  /-- SNP_RESP with the responder's state. -/
  | resp (g : Gst)
  /-- SNP_RESP_DATA. -/
  | data (g : Gst) (dirty : Bool) (d : Line) (p : Bool)
  /-- FWD_DONE. -/
  | done (g : Gst)
  deriving DecidableEq, Repr

/-- The state an answer reports (R38). -/
def Ans.gst : Ans → Gst
  | .resp g => g
  | .data g _ _ _ => g
  | .done g => g

/-- The tracker entry that sent a snoop for a line under a home tag. -/
def trkAns (c : Core) (line idx : Nat) : Option Trk := c.arr.trk.find? (fun t => t.idx == idx && t.req.line == line)

/-- A snoop is open at the home for a responder (R488). -/
def snoopOpen (c : Core) (line idx who : Nat) : Bool :=
  match trkAns c line idx with
  | some t => t.snoops.any (fun s => s.who == who)
  | none => false

/-- A forwarding snoop (R89). -/
def Msg.isFwd (m : Msg) : Bool := m == .snpFwdShared || m == .snpFwdUnique

/-- The responder keeps the line, or has it no longer. -/
def noteState (t : Trk) (who : Nat) (g : Gst) : Trk :=
  if g = .i then
    { t with gone := t.gone ++ [who]
             lateFilter := t.lateFilter || (t.req.op == .rdShared && t.holder == some who) }
  else { t with keepS := t.keepS ++ [who] }

/-- The home's value of a holder is lost: the transaction goes on with poisoned data, which the two-copy write puts into both copies
(R73, R125, R336). -/
def holderLost (c : Core) (t : Trk) (who : Nat) : Core × Trk :=
  let k := takeFree c
  let d := Config.lostLine k.1
  (k.2, { wbUse { t with snoops := t.snoops.filter (fun s => s.who != who) } who true d true with data := some d, poison := true })

/-- Clean data equals the home's value; where the line cache holds no copy it is written as a Clean line (R91): into the way of a fill that is
out when that ends, else into the location that a fill or a write would take. -/
def keepClean (c : Core) (t : Trk) (d : Line) (p : Bool) : Core :=
  let out : Bool := match t.fill with
    | .out _ => true
    | _ => false
  if t.rtype ≠ 1 ∨ out ∨ lcOffMode c ∨ (lcFind c t.slice t.req.line).isSome ∨ (heldOf c t.req.line).isSome then c
  else
    let f := lcPickFill c t.slice t.req.line
    let r := if f.1.isSome then f else lcPickWrite f.2 (physOf c t.slice) t.req.line
    match r.1 with
    | some w => lcPut r.2 (physOf c t.slice) (lcSet t.req.line) w { use := .clean, line := t.req.line, poison := p, data := d }
    | none => r.2

/-- An answer reaches its tracker (R89 to R91, R121). `mark`: the port has marked it crossing. -/
def homeAnswer (c : Core) (line idx who : Nat) (a : Ans) (mark : Bool) : Core :=
  match trkAns c line idx with
  | none => c
  | some t =>
    match t.snoops.find? (fun s => s.who == who) with
    | none => c
    | some sn =>
      let t := { t with snoops := t.snoops.erase sn }
      let silent := match a with
        | .resp g => g == .i
        | _ => false
      let fwdNo := match a with
        | .resp _ => sn.msg.isFwd
        | _ => false
      let wait := mark || fwdNo || (silent && sn.msg != .snpInval && t.holder == some who)
      if wait then
        if attachedOf t who then carry (trkPut c t)
        else carry (trkPut c { t with awaitWb := t.awaitWb ++ [(who, now c)] })
      else
        match a with
        | .resp g => carry (trkPut c (noteState t who g))
        | .done g => carry (trkPut c (noteState t who g))
        | .data g dirty d p =>
          let t := noteState t who g
          let t := { t with data := some d, poison := p }
          if dirty then carry (trkPut c { t with dirtyIn := some (d, p) })
          else carry (trkPut (if isWhole t then c else keepClean c t d p) t)

/-- The agent behind an open snoop can answer no more: its answer has timed out, or its instance is lost. Where it held the line
EXCLUSIVE the line is poisoned; else it counts as GST = I (R336, R317). -/
def homeGone (c : Core) (line idx who : Nat) : Core :=
  match trkAns c line idx with
  | none => c
  | some t =>
    if !(t.snoops.any (fun s => s.who == who)) then c
    else
      if attachedOf t who then carry (trkPut c { t with snoops := t.snoops.filter (fun s => s.who != who) })
      else if t.holder = some who then
        let y := holderLost c t who
        carry (trkPut y.1 y.2)
      else carry (trkPut c (noteState { t with snoops := t.snoops.filter (fun s => s.who != who) } who .i))

/-- An awaited write-back will not come (R125). -/
def homeNoWb (c : Core) (line idx who : Nat) : Core :=
  match trkAns c line idx with
  | none => c
  | some t =>
    if t.awaitWb.any (fun a => a.1 == who) then
      let y := holderLost c t who
      carry (trkPut y.1 y.2)
    else c

/-! ### The partner's part (R95 to R97, R151). -/

/-- The partner notes a line changed by a home tracker (R151). -/
def noteChange (c : Core) (slice trk line : Nat) : Core :=
  let has := c.arr.changes.any (fun r => r.slice == slice && r.trk == trk)
  { c with arr := { c.arr with changes :=
      if has then c.arr.changes.map (fun r => if r.slice = slice ∧ r.trk = trk ∧ !r.lines.contains line
        then { r with lines := r.lines ++ [line] } else r)
      else c.arr.changes ++ [{ slice := slice, trk := trk, lines := [line] }] } }

/-- A mirror write reaches the partner, with the filter-copy write of its flow (R87, R95 step 3, R96). Data that has failed its check twice is
poisoned there and latches DATA_REFAIL (R400); where the chosen location fails its write check another one is written. -/
def mirrorWrite (c : Core) (slice trk : Nat) (fault : MirrorFault) : Core :=
  match c.fab.mirW.find? (fun m => m.slice == slice && m.trk == trk) with
  | none => c
  | some m =>
    let c := if fault = .refails then alarm c 10 else c
    let pp := physOf c (partnerOf slice)
    let had := mirFind c slice m.line
    let first : Option Nat × Core := match had with
      | some w => if lcDisabled c pp m.set w then lcPickWrite c pp m.line else (some w, c)
      | none => lcPickWrite c pp m.line
    let bad := fault == .badWay && first.1.isSome
    let r := if bad then lcPickBut (lcFailed first.2 pp m.set (first.1.getD 0)) pp m.line first.1 else first
    match r.1 with
    | none => r.2
    | some w =>
      let c := match had with
        | some v => if v = w then r.2 else lcFree r.2 pp m.set v
        | none => r.2
      let c := lcPut c pp m.set w { use := .mirror, line := m.line, poison := m.poison || fault == .refails, hway := m.hway, data := m.data }
      let c := { c with fab := { c.fab with mirW := c.fab.mirW.erase m, mirA := c.fab.mirA ++ [(slice, trk)] } }
      let c := match m.filt with
        | some f => { c with arr := { c.arr with sfPart := mput c.arr.sfPart (sfKey slice f.set f.way) f.word } }
        | none => c
      noteChange c slice trk m.line

/-- A mirror acknowledgment reaches the home (R95 step 5). -/
def mirrorAck (c : Core) (slice trk : Nat) : Core :=
  if !c.fab.mirA.contains (slice, trk) then c
  else
    let c := { c with fab := { c.fab with mirA := c.fab.mirA.erase (slice, trk) } }
    match trkGet c slice trk with
    | none => c
    | some t =>
      let last := decide (t.mirrors ≤ 1)
      let c := trkPut c { t with mirrors := t.mirrors - 1, both := t.both && !last }
      let c := if last then
          match dirtyLoc c t.req.line with
          | some (ph, cs, w, l) => dropHeld (lcRaw c ph cs w { l with mirrored := true }) t.req.line
          | none => c
        else c
      carry c

/-- A filter-copy write reaches the partner (R151). -/
def filterWrite (c : Core) (slice trk : Nat) : Core :=
  match c.fab.filtW.find? (fun m => m.slice == slice && m.trk == trk) with
  | none => c
  | some m =>
    let c := { c with
      arr := { c.arr with sfPart := mput c.arr.sfPart (sfKey slice m.set m.way) m.word }
      fab := { c.fab with filtW := c.fab.filtW.erase m, filtA := c.fab.filtA ++ [(slice, trk)] } }
    match trkGet c slice trk with
    | some t => noteChange c slice trk t.req.line
    | none => c

/-- A filter-copy acknowledgment reaches the home (R87). -/
def filterAck (c : Core) (slice trk : Nat) : Core :=
  if !c.fab.filtA.contains (slice, trk) then c
  else
    let c := { c with fab := { c.fab with filtA := c.fab.filtA.erase (slice, trk) } }
    match trkGet c slice trk with
    | some t => carry (trkPut c { t with fcopies := t.fcopies - 1 })
    | none => c

/-- A mirror release reaches the partner (R97). -/
def mirrorReleased (c : Core) (slice line : Nat) : Core :=
  if !c.fab.mirRel.contains (slice, line) then c
  else
    let c := { c with fab := { c.fab with mirRel := c.fab.mirRel.erase (slice, line) } }
    let busy := (dirtyLoc c line).isSome || c.fab.mirW.any (fun m => m.line == line)
    match mirFind c slice line with
    | some w => if busy then c else lcFree c (physOf c (partnerOf slice)) (lcSet line) w
    | none => c

/-- A close notice reaches the partner (R151). -/
def closeNoticed (c : Core) (slice trk : Nat) : Core :=
  if !c.fab.closeN.contains (slice, trk) then c
  else
    { c with
      fab := { c.fab with closeN := c.fab.closeN.erase (slice, trk) }
      arr := { c.arr with changes := c.arr.changes.filter (fun r => !(r.slice == slice && r.trk == trk)) } }

/-! ### Set recovery (R153). -/

/-- Trackers that wait in LOOKUP for a set go on (R153 step 6). -/
def relook (c : Core) (s si : Nat) : Core :=
  c.arr.trk.foldl (fun c t0 =>
    if t0.slice == s && t0.st == .lookup && !t0.second &&
        (sfSet t0.req.line == si || (t0.req.op == .loadRes && sfSet (t0.req.line ^^^ 1) == si)) then
      match trkGet c s t0.idx with
      | some t => if t.req.op.isWb then wbStart c t else lookup c t
      | none => c
    else c) c

/-- A filter-copy write for a set is outstanding, alone or with a mirror write (R87, R153 step 2). -/
def copyPending (c : Core) (s si : Nat) : Bool :=
  c.fab.filtW.any (fun m => m.slice == s && m.set == si) ||
    c.fab.mirW.any (fun m => m.slice == s && m.filt.any (fun f => f.set == si)) ||
    c.arr.trk.any (fun t => t.slice == s && sfSet t.req.line == si && (t.fcopies != 0 || t.both))

/-- The partner reads the set once no filter-copy write for it is outstanding (R153 steps 2 to 4). -/
def setRead (c : Core) (s si : Nat) : Core :=
  if copyPending c s si then c
  else { c with arr := { c.arr with setRec := c.arr.setRec.map (fun r =>
      if r.slice = s ∧ r.set = si ∧ !r.sent then
        { r with sent := true, reply := some ((List.range 16).map (fun w => sfRdP c s si w)), t0 := now c } else r) } }

/-- The reply of a set read: failed ways are rewritten from the other copy, ways failed in both are lost (R153 steps 5 and 6, R155). -/
def setReply (c : Core) (s si : Nat) : Core :=
  match c.arr.setRec.find? (fun r => r.slice == s && r.set == si && r.reply.isSome) with
  | none => c
  | some r =>
    let part := r.reply.getD []
    let own := c.dom.inst
    let bad := fun w => !sfWordOk own (sfRd c s si w)
    let pbad := fun w => !sfWordOk own (part.getD w {})
    let ways := List.range 16
    let fix := ways.filter (fun w => bad w && !pbad w)
    let back := ways.filter (fun w => !bad w && pbad w)
    let both := ways.filter (fun w => bad w && pbad w)
    let c := back.foldl (fun c w =>
      let y := flipWord c 2 7 (sfRd c s si w)
      let m : FiltW := { slice := s, trk := noTrk, set := si, way := w, word := y.1 }
      { y.2 with fab := { y.2.fab with filtW := y.2.fab.filtW ++ [m] } }) { c with arr := { c.arr with setRec := c.arr.setRec.erase r } }
    let c := fix.foldl (fun c w =>
      let y := flipWord c 2 7 (part.getD w {})
      { y.2 with arr := { y.2.arr with sfHome := mput y.2.arr.sfHome (sfKey s si w) y.1 } }) c
    let c := loseWays c s si both
    let c := if fix ++ back = [] then c else event c 0x302 [1, wd s]
    let c := (fix ++ both).foldl (fun c w => sfFailed c (2 * physOf c s) s si w) c
    let c := (back ++ both).foldl (fun c w => sfFailed c (2 * physOf c (partnerOf s) + 1) s si w) c
    carry (relook c s si)

/-! ### Victims, sweeps, Bourdon slots (R114, R131, R156, R157). -/

/-- A back-invalidation starts for a transaction that waits for a way (R114, R128). -/
def victimFor (c : Core) (s trk : Nat) : Core :=
  match trkGet c s trk with
  | none => c
  | some t =>
    let si := sfSet t.req.line
    let going := c.arr.trk.any (fun u => u.req.op == .backInval && u.slice == s && u.mate == some trk)
    if !t.victim || t.way.isSome || going then c
    else if (sfFree c s si).isSome then carry c
    else
      let p := poolTurn c s .internal (waitVictim trk)
      if !p.1 then p.2
      else
        let v := sfVictim p.2 s si
        match v.1 with
        | some w => carry (backInval v.2 s si w (some trk))
        | none => v.2

/-- The line of index i of a set sweep: over all values of tag and low tag (R142, R156). -/
def sweepAt (c : Core) (si i : Nat) : Nat := c.dom.inst * 2 ^ 42 + sfLine si (i / 64) (i % 64)

/-- A sweep keeps a line: NORMAL, of this slice, and without a valid entry (R156). -/
def sweepKeeps (c : Core) (s line : Nat) : Bool :=
  lineType c line == 1 && sliceOf c line == s && (sfFind c s line).isNone

/-- The next index from i on whose line a sweep keeps. -/
def sweepFind (c : Core) (s si : Nat) : Nat → Nat → Option Nat
  | 0, _ => none
  | fuel + 1, i => if sweepKeeps c s (sweepAt c si i) then some i else sweepFind c s si fuel (i + 1)

/-- The set sweep of a slice issues its next line (R156). The set that was lost first goes first (assumption 84). -/
def sweepNext (c : Core) (s : Nat) : Core :=
  match c.arr.lost.find? (fun x => x.slice == s && x.covered && decide (x.next < 2 ^ 26)) with
  | none => sweepEnd c
  | some x =>
    if c.ending then c else
    let rate := fld (regv c (0x100420 + 0x10000 * s)) 3 0
    let mine := (c.arr.trk.filter (fun t => t.req.op == .sweep && t.slice == s)).length
    if now c < x.lastAt + 2 ^ rate ∨ 8 ≤ mine then c
    else
      let upd := fun (c : Core) (n : Nat) => { c with arr := { c.arr with
        lost := c.arr.lost.map (fun y => if y = x then { y with next := n, lastAt := now c } else y) } }
      match sweepFind c s x.set (2 ^ 26 - x.next) x.next with
      | none => sweepEnd (upd c (2 ^ 26))
      | some i =>
        let line := sweepAt c x.set i
        if slotHeld c line || lineBusy c line || decide (64 ≤ slotsUsed c) then c
        else
          let p := poolTurn c s .internal waitSweep
          match (if p.1 then trkFree c s .internal else none) with
          | none => p.2
          | some idx =>
            let c := upd p.2 (i + 1)
            let c := trkAdd c s idx .internal (internalReq .sweep s idx line) .gather
            let l := bcastTo c none
            let c := ctrAdd c (0x100410 + 0x10000 * s) 48 l.length
            match trkGet c s idx with
            | some t =>
              let y := snoopAll c { t with passed := true, rtype := 1, slot := true, bcast := true } l .snpInval
              carry (trkPut y.1 y.2)
            | none => c

/-- The covered lines of a request: a LOAD_RES has two (R109, R131). -/
def coveredLines (c : Core) (t : Trk) : List Nat :=
  (t.req.line :: if t.req.op = .loadRes then [t.req.line ^^^ 1] else []).filter (covered c t.slice)

/-- A set of a request's lines lets it pass: it has a set slot, and where it once waited for one, no request that came earlier waits (R158). -/
def setLets (c : Core) (t : Trk) (line : Nat) : Bool :=
  match setLost c t.slice (sfSet line) with
  | none => true
  | some x => above16T line || (x.covered && !(x.waited &&
      (c.arr.trk.takeWhile (fun y => !(y.slice == t.slice && y.idx == t.idx))).any (fun y =>
        y.slice == t.slice && y.st == .bourdon && sfSet y.req.line == sfSet line)))

/-- A request stands at the arbiter: every line it needs is free and holds no slot but its own, and it is the line's oldest (R131). -/
def slotAsks (c : Core) (t : Trk) : Bool :=
  t.st == .bourdon && !t.second && !sliceStops c t.slice && (t.req.line :: coveredLines c t).all (fun l =>
    !lineBusy c l && !olderWaits c t l && setLets c t l &&
      !c.arr.trk.any (fun x => x.slot && x.req.line == l && !(x.slice == t.slice && x.idx == t.idx)))

/-- Requests that have found every slot taken are served in round-robin order of their bearing slices (R131). -/
def slotTurn (c : Core) (t : Trk) : Bool :=
  let l := c.arr.trk.filter (fun x => x.full && slotAsks c x)
  match ((List.range 33).map (fun i => (c.arr.slotRR + 1 + i) % 33)).find? (fun p => l.any (fun x => x.phys == p)) with
  | none => true
  | some p => match l.find? (fun x => x.phys == p) with
    | some x => x.slice == t.slice && x.idx == t.idx
    | none => true

/-- The Bourdon arbiter grants a line slot, of 64 in all: to the oldest waiting request of a line that holds none, or to the one that a released
slot has passed to; a LOAD_RES takes one for each of its lines that is covered (R109, R131, R158). -/
def slotGrant (c : Core) (s trk : Nat) : Core :=
  match trkGet c s trk with
  | none => c
  | some t =>
    let lines := coveredLines c t
    let need := (lines.filter (fun l => !(t.slot && l == t.req.line))).length
    if !slotAsks c t then c
    else if need != 0 && (decide (64 < slotsUsed c + need) || !slotTurn c t) then trkPut c { t with full := true }
    else
      let c := if t.full then { c with arr := { c.arr with slotRR := t.phys } } else c
      let c := match t.mate with
        | some m => if lines.contains (t.req.line ^^^ 1) then
            (match trkGet c s m with | some u => trkPut c { u with slot := true } | none => c) else c
        | none => c
      carry (lookup c { t with slot := lines.contains t.req.line, full := false, st := .queued })

/-! ### The commands. -/

/-- MIRROR_WRITE (R95, R96). -/
def execMirrorWrite (slice : Fin 32) (trk : MirrorIn) (s : State) : Host.Outcome State Fault Refusal :=
  onCore s (fun c => mirrorWrite c slice.val trk.trk trk.fault)

/-- MIRROR_ACK (R95). -/
def execMirrorAck (slice : Fin 32) (trk : Nat) (s : State) : Host.Outcome State Fault Refusal :=
  onCore s (fun c => mirrorAck c slice.val trk)

/-- FILTER_COPY_WRITE (R151). -/
def execFilterCopyWrite (slice : Fin 32) (trk : Nat) (s : State) : Host.Outcome State Fault Refusal :=
  onCore s (fun c => filterWrite c slice.val trk)

/-- FILTER_COPY_ACK (R87). -/
def execFilterCopyAck (slice : Fin 32) (trk : Nat) (s : State) : Host.Outcome State Fault Refusal :=
  onCore s (fun c => filterAck c slice.val trk)

/-- MIRROR_RELEASE (R97). -/
def execMirrorRelease (slice : Fin 32) (line : Nat) (s : State) : Host.Outcome State Fault Refusal :=
  onCore s (fun c => mirrorReleased c slice.val line)

/-- CLOSE_NOTICE (R151). -/
def execCloseNotice (slice : Fin 32) (trk : Nat) (s : State) : Host.Outcome State Fault Refusal :=
  onCore s (fun c => closeNoticed c slice.val trk)

/-- SET_READ_REQUEST (R153). -/
def execSetReadRequest (slice : Fin 32) (set : Fin 4096) (s : State) : Host.Outcome State Fault Refusal :=
  onCore s (fun c => setRead c slice.val set.val)

/-- SET_READ_REPLY (R153). -/
def execSetReadReply (slice : Fin 32) (set : Fin 4096) (s : State) : Host.Outcome State Fault Refusal :=
  onCore s (fun c => setReply c slice.val set.val)

/-- BACK_INVALIDATION (R114). -/
def execBackInvalidation (slice : Fin 32) (trk : Nat) (s : State) : Host.Outcome State Fault Refusal :=
  onCore s (fun c => victimFor c slice.val trk)

/-- SWEEP_LINE (R156). -/
def execSweepLine (slice : Fin 32) (s : State) : Host.Outcome State Fault Refusal :=
  onCore s (fun c => sweepNext c slice.val)

/-- BOURDON_SLOT_GRANT (R131). -/
def execBourdonSlotGrant (slice : Fin 32) (trk : Nat) (s : State) : Host.Outcome State Fault Refusal :=
  onCore s (fun c => slotGrant c slice.val trk)

/-- RESERVATION_EXPIRY (R223): a monitor entry whose expiry time has passed is cancelled. -/
def execReservationExpiry (slice : Fin 32) (e : Fin 12) (s : State) : Host.Outcome State Fault Refusal :=
  onCore s (fun c =>
    match mfind? c.arr.mon (slice.val * 12 + e.val) with
    | some m => if m.expiry < now c then { c with arr := { c.arr with mon := mdel c.arr.mon (slice.val * 12 + e.val) } } else c
    | none => c)

end Sys2Proof.Machine
end

