-- ==== Sys2Proof/Machine/Proxy.lean ====
section
/-! DEFINITION. The span gateways: the requests and write-backs of local requesters toward remote homes, the proxy filter, remote
snoops, and what a gateway delivers to the homes of this instance (R162 to R169, R292 to R299, R309). -/

namespace Sys2Proof.Machine

/-- The number that stands for gateway k where a port snoop names the sender's slice. -/
def gwPhys (k : Nat) : Nat := 1000 + k

/-- The source that stands for the gateway's own messages, which no local requester waits for. -/
def gwOwn : Nat := 2000

/-- The TAG of a snoop that the gateway sends for itself. -/
def ownTag : Nat := 0xFFF

/-- Requester ID of this instance at a remote home (R295). -/
def ownRid (c : Core) : Nat := 80 + c.dom.inst

/-- An error completion of a read carries a data flit (R60). -/
def readMsg (m : Msg) : Bool := m == .rdShared || m == .rdUnique || m == .rdOnce || m == .load || m == .loadRes

/-- The error completion of a request (R60). -/
def errFlit (m : Option Msg) (tag rid line : Nat) (st : Stat) : OutFlit :=
  let rd := match m with | some x => readMsg x | none => false
  { msg := if rd then .cmpData else .cmp, tag := tag, rid := rid, stat := st, line := line, dv := rd
    be := if rd then beAll else 0 }

/-! ### Routes and reachability (R305, R308). -/

/-- Note since when each member has had no live route (R308, R309). -/
def routesChanged (c : Core) : Core :=
  (List.range 16).foldl (fun c i =>
    if i = c.dom.inst ∨ !isMember c i then { c with dom := { c.dom with noRouteAt := mdel c.dom.noRouteAt i } }
    else if (activeRoute c i).isSome then { c with dom := { c.dom with noRouteAt := mdel c.dom.noRouteAt i } }
    else if (mfind? c.dom.noRouteAt i).isSome then c
    else { c with dom := { c.dom with noRouteAt := mput c.dom.noRouteAt i (now c + 1) } }) c

/-- The status of a request toward an instance whose ingress timeout expires: ERR_SPAN where the instance had no live route for the
whole wait (R308, R337). -/
def remoteTmo (c : Core) (dst t0 : Nat) : Stat :=
  match mfind? c.dom.noRouteAt dst with
  | some t => if t ≤ t0 + 1 then .errSpan else .errTimeout
  | none => .errTimeout

/-! ### Proxy entries (R164). -/

/-- A line's proxy entry becomes INVALID (R168). -/
def pfClear (c : Core) (line : Nat) : Core :=
  let c := pfCheck c line
  match pfFind c line with
  | some w => pfPut c line w 0
  | none => c

/-- An agent whose write-back or eviction has been forwarded leaves the line's entry; a VECTOR bit stays (R147, R164). -/
def pfDrop (c : Core) (line who : Nat) : Core :=
  let c := pfCheck c line
  match pfFind c line with
  | some w =>
    let e := (pfRd c (pfBank line) (pfSet line) w).bits
    if pVec e || !(pAgents e).contains who then c
    else pfPut c line w (pMk (pState e == 2) (pfTag line) ((pAgents e).filter (fun a => a != who)))
  | none => c

/-- The answers to a snoop are all in: agents that hold the line no more leave its entry, a VECTOR bit only with every agent that it covers; an
EXCLUSIVE holder that keeps the line in S makes it SHARED (R147, R164). -/
def pfAnswered (c : Core) (line : Nat) (gone kept : List Nat) : Core :=
  let c := pfCheck c line
  match pfFind c line with
  | none => c
  | some w =>
    let e := (pfRd c (pfBank line) (pfSet line) w).bits
    let left := (pAgents e).filter (fun a => !gone.contains a)
    let e' := if pVec e then pMkVec (pfTag line) left
      else pMk (pState e == 2 && !left.any (fun a => kept.contains a)) (pfTag line) left
    if e' = e then c else pfPut c line w e'

/-- The lowest free way of a line's proxy set (the choice is the model's: assumption 84). -/
def pfFree (c : Core) (line : Nat) : Option Nat :=
  (List.range 16).find? (fun w => pState (pfRd c (pfBank line) (pfSet line) w).bits == 0)

/-- A line with a request, a write-back or a remote snoop in progress through its gateway (R168). -/
def gwLineBusy (c : Core) (line : Nat) : Bool :=
  let g := gwGet c (pfBank line)
  g.tags.any (fun t => t.req.line == line) || g.lineq.any (fun r => r.line == line) || g.snoops.any (fun s => s.line == line)

/-- A proxy NRU word found bad reads as zero and is an error of category 4, KIND 0 (R150, R168, R176). -/
def pfNruFix (c : Core) (k si : Nat) : Core :=
  if !(gwGet c k).nruBad.contains si then c
  else arrayError (gwMod c k (fun g => { g with nruBad := g.nruBad.filter (fun x => x != si), pfNru := mdel g.pfNru si }))
    { cat := 4, kind := 0, unit := epG k, set := si % 4096 }

/-- A proxy NRU word is written; a flip armed for category 4 strikes it (R364). -/
def pfNruPut (c : Core) (k si : Nat) (n : BitVec 16) : Core :=
  let bad := flipArmed c 4
  gwMod (if bad then flipFire c else c) k (fun g => { g with
    pfNru := mput g.pfNru si n, nruBad := if bad then si :: g.nruBad else g.nruBad })

/-- The victim of a full proxy set (R149, R150, R168). -/
def pfVictim (c : Core) (line : Nat) : Option Nat × Core :=
  let k := pfBank line
  let si := pfSet line
  let c := pfNruFix c k si
  let g := gwGet c k
  let ent := fun w => (pfRd c k si w).bits
  let cands := (List.range 16).filter (fun w => pState (ent w) != 0 && !gwLineBusy c (pLine k si (ent w)))
  let cost := fun w => (pAgents (ent w)).length
  let nru := mget g.pfNru si 0
  match pickVictim nru cost c.pol.costMax cands with
  | some w => (some w, c)
  | none =>
    if cands = [] then (none, c)
    else
      let n := nru &&& ~~~ BitVec.ofNat 16 (ofBits cands)
      (pickVictim n cost c.pol.costMax cands, pfNruPut c k si n)

/-- Set the NRU bit of a proxy way (R150). -/
def pfTouch (c : Core) (line w : Nat) : Core :=
  let k := pfBank line
  let si := pfSet line
  let c := pfNruFix c k si
  pfNruPut c k si (mget (gwGet c k).pfNru si 0 ||| BitVec.ofNat 16 (2 ^ w))

/-! ### Sending toward remote homes (R295). -/

/-- The message of a request. -/
def opMsg : Op → Msg
  | .rdShared => .rdShared | .rdUnique => .rdUnique | .rdOnce => .rdOnce | .cleanUnique => .cleanUnique
  | .wrFull => .wrFull | .wrPartial => .wrPartial | .persist => .persist | .load => .load | .store => .store
  | .loadRes => .loadRes | .storeCond => .storeCond | .fence => .fence | .fenceP => .fenceP
  | .wbDirty => .wbDirty | .evictClean => .evictClean
  | .prefetch => .rdOnce | .pug => .rdOnce | .backInval => .rdOnce | .sweep => .rdOnce

/-- A free gateway tag entry, 64 of the 1,024 being kept for the WB class (R295). -/
def gwFreeTag (g : Gateway) (k : Nat) (wb : Bool) : Option Nat :=
  if !wb && decide (960 ≤ (g.tags.filter (fun t => !t.req.op.isWb)).length) then none
  else (firstFree 1024 (fun e => g.tags.any (fun t => t.tag == k * 1024 + e))).map (fun e => k * 1024 + e)

/-- Send a request or write-back to its remote home (R295); unchanged where no tag entry is free. Answers whether it left. -/
def gwSendReq (c : Core) (k : Nat) (r : Req) : Bool × Core :=
  match gwFreeTag (gwGet c k) k r.op.isWb with
  | none => (false, c)
  | some tg =>
    let dst := instOf r.line
    let m := opMsg r.op
    let f : OutFlit := {
      msg := m, tag := tg, rid := ownRid c, poison := r.poison, line := r.line, dv := msgData m, be := r.be
      data := if msgData m then r.data else 0 }
    let c := gwMod (flipQueue c (epG k)) k (fun g => { g with tags := g.tags ++ [{ tag := tg, req := r, dst := dst, t0 := now c }] })
    (true, spanSend c k dst m [f])

/-- The gateway's own write-back or eviction notice, under the proxy's sharer index (R168, R297). -/
def gwOwnWb (line : Nat) (dirty : Bool) (d : Line) (p : Bool) : Req :=
  { op := if dirty then .wbDirty else .evictClean, src := gwOwn, tag := line, rid := 127, line := line, be := beAll, data := d, poison := p }

/-- A grant that came too late is given back (R337); without a tag entry the message waits. -/
def gwWriteBack (c : Core) (k line : Nat) (dirty : Bool) (d : Line) (p : Bool) : Core :=
  let r := gwOwnWb line dirty d p
  let x := gwSendReq c k r
  if x.1 then x.2 else gwMod c k (fun g => { g with lineq := g.lineq ++ [r] })

/-! ### Snoops through the proxy (R166, R167). -/

/-- The kinds of the gateway's own snoops, in `frid`: conditioning an EXCLUSIVE holder, conditioning sharers, a victim, a lost
instance, a leave (R168, R297, R309, R321). -/
def ownExcl : Nat := 1
/-- Conditioning sharers. -/
def ownInval : Nat := 2
/-- A victim entry. -/
def ownVictim : Nat := 3
/-- A line of a lost instance. -/
def ownLost : Nat := 4
/-- A line of a leave. -/
def ownLeave : Nat := 5

/-- Answer a snoop whose local answers are all in (R167), or end the gateway's own. Agents leave the entry only after the write-back or answer that
carries their data has been sent; a write-back that finds no tag entry waits (R165, R168). -/
def gwSnoopTry (c : Core) (k line tag : Nat) : Core :=
  match (gwGet c k).snoops.find? (fun s => s.line == line && s.tag == tag) with
  | none => c
  | some s =>
    if s.waits != [] || s.waitWb != [] then c
    else
      let out := fun (c : Core) => gwMod c k (fun g => { g with snoops := g.snoops.erase s })
      if s.own ∧ s.frid = ownInval then pfAnswered (out c) line s.gone s.kept
      else if s.own ∧ s.frid = ownLost then pfClear (out c) line
      else if s.own then
        let x := gwSendReq c k (gwOwnWb line s.dirty (s.data.getD 0) s.poison)
        if x.1 then pfClear (out x.2) line else c
      else
        let f : OutFlit := { msg := .snpResp, tag := s.tag, rid := ownRid c, line := line, gst := if s.kept = [] then .i else .s }
        let c := match s.data with
          | some d => spanSend c k s.home .snpRespData
              [{ f with msg := .snpRespData, be := beAll, data := d, dv := true, poison := s.poison, dirty := s.dirty }]
          | none =>
            if s.fwd then spanSend c k s.home .fwdDone [{ f with msg := .fwdDone }]
            else spanSend c k s.home .snpResp [f]
        pfAnswered (out c) line s.gone s.kept

/-- A write-back of an agent for a line has been accepted and has not left on the span path yet. -/
def wbHere (c : Core) (k line who : Nat) : Bool :=
  (cpGet c (portOfAgent who)).inq.any (waitingWb who line) ||
    (gwGet c k).lineq.any (fun r => r.op.isWb && r.line == line && r.rid == who)

/-- Pass a snoop on to local agents; one behind a closed port counts as answered with GST = I, once a write-back of it that was accepted has gone
on (R72, R166, R167). -/
def gwSnoopSend (c : Core) (k : Nat) (s : GwSnoop) (l : List Nat) : Core :=
  let live := l.filter (fun a => !(cpGet c (portOfAgent a)).closed)
  let dead := l.filter (fun a => !live.contains a)
  let c := gwMod c k (fun g => { g with
    snoops := g.snoops ++ [{ s with waits := live, gone := dead, waitWb := dead.filter (wbHere c k s.line) }] })
  let c := live.foldl (fun c a =>
    let c := cpMod c (portOfAgent a) (fun y => { y with snoops := y.snoops ++ [{ agent := a, line := s.line, phys := gwPhys k, trk := s.tag }] })
    cpOut c (portOfAgent a) { msg := s.msg, tag := s.tag, rid := a, line := s.line
                              be := if s.own then 0 else fwdField s.frid s.ftag }) c
  gwSnoopTry c k s.line s.tag

/-- The gateway has sent an agent's write-back for a line on the span path and waits for nothing more of it. -/
def gwSawWb (c : Core) (k line who : Nat) : Core :=
  let c := gwMod c k (fun g => { g with snoops := g.snoops.map (fun s =>
    if s.line = line then { s with waitWb := s.waitWb.filter (fun a => a != who) } else s) })
  (gwGet c k).snoops.foldl (fun c s => if s.line = line then gwSnoopTry c k line s.tag else c) c

/-- The gateway awaits an agent's answer to a snoop that it has passed on (R488). -/
def gwSnoopOpen (c : Core) (k line tag who : Nat) : Bool :=
  (gwGet c k).snoops.any (fun s => s.line == line && s.tag == tag && s.waits.contains who)

/-- A local answer to a snoop that the gateway has passed on (R167). -/
def gwAnswer (c : Core) (k line tag who : Nat) (a : Ans) (mark : Bool) : Core :=
  match (gwGet c k).snoops.find? (fun s => s.line == line && s.tag == tag && s.waits.contains who) with
  | none => c
  | some s =>
    let s1 := { s with waits := s.waits.erase who
                       kept := if a.gst = .i then s.kept else s.kept ++ [who]
                       gone := if a.gst = .i then s.gone ++ [who] else s.gone
                       waitWb := if mark && wbHere c k line who then s.waitWb ++ [who] else s.waitWb }
    let s2 := match a with
      | .resp _ => s1
      | .done _ => { s1 with fwd := true }
      | .data _ dirty d p =>
        if dirty then { s1 with data := some d, poison := p, dirty := true }
        else if s1.data.isNone then { s1 with data := some d, poison := p } else s1
    gwSnoopTry (gwMod c k (fun g => { g with snoops := g.snoops.map (fun x => if x = s then s2 else x) })) k line tag

/-! ### The gateway's line queue (R296, R297). -/

/-- The first request of the line queue whose line has no REQ outstanding and none queued before it; a write-back waits for a tag entry
only (R296). -/
def gwHead (g : Gateway) : Option Req :=
  g.lineq.find? (fun r =>
    if r.op.isWb then true
    else !(g.tags.any (fun t => t.req.line == r.line && !t.req.op.isWb)) &&
      ((g.lineq.find? (fun q => q.line == r.line && !q.op.isWb)) == some r))

/-- The gateway's own snoops whose write-back waits for a tag entry try again (R168, R295). -/
def gwRetry (c : Core) (k : Nat) : Core :=
  ((gwGet c k).snoops.filter (fun s => s.own)).foldl (fun c s => gwSnoopTry c k s.line s.tag) c

/-- Send the head of the line queue, or start the snoops that condition it (R297). -/
def gwPump (c : Core) (k : Nat) : Core :=
  let c := gwRetry c k
  match gwHead (gwGet c k) with
  | none => c
  | some r =>
    let go := fun (c : Core) (r' : Req) =>
      let x := gwSendReq c k r'
      if x.1 then gwMod x.2 k (fun g => { g with lineq := g.lineq.erase r }) else c
    if r.op.isWb then
      let x := gwSendReq c k r
      if x.1 then gwSawWb (pfDrop (gwMod x.2 k (fun g => { g with lineq := g.lineq.erase r })) r.line r.rid) k r.line r.rid else c
    else
      let c := pfCheck c r.line
      if (gwGet c k).snoops.any (fun s => s.line == r.line) then c
      else
        let e := match pfFind c r.line with
          | some w => (pfRd c k (pfSet r.line) w).bits
          | none => 0
        let others := (pAgents e).filter (fun a => a != r.rid)
        let writes := r.op == .rdUnique || r.op == .cleanUnique || r.op == .wrFull || r.op == .wrPartial || r.op == .store
        let own : GwSnoop := { line := r.line, home := c.dom.inst, tag := ownTag, msg := .snpUnique, frid := ownExcl, ftag := 0, waits := [], own := true }
        if c.ending then go c r
        else if pState e = 2 ∧ others ≠ [] then gwSnoopSend c k own others
        else if pState e = 1 ∧ others ≠ [] ∧ writes then
          gwSnoopSend c k { own with msg := .snpInval, frid := ownInval } others
        else if r.op = .cleanUnique ∧ !(pAgents e).contains r.rid then go c { r with op := .rdUnique }
        else go c r

/-- A request or write-back of a local requester reaches its gateway (R292, R296). -/
def gwTake (c : Core) (r : Req) : Core :=
  let k := pfBank r.line
  if r.op.isWb then
    let x := gwSendReq c k r
    if x.1 then gwSawWb (pfDrop x.2 r.line r.rid) k r.line r.rid
    else gwMod c k (fun g => { g with lineq := g.lineq ++ [r] })
  else gwMod c k (fun g => { g with lineq := g.lineq ++ [r] })

/-- A requester's ACK for a remote line travels back through its gateway, which then forgets the mapping (R295). -/
def gwAck (c : Core) (line src tag : Nat) : Core :=
  let k := pfBank line
  match (gwGet c k).tags.find? (fun t => t.req.src == src && t.req.tag == tag && t.ackWait) with
  | none => c
  | some t =>
    let c := gwMod c k (fun g => { g with tags := g.tags.erase t })
    spanSend c k t.dst .ack [{ msg := .ack, tag := t.tag, rid := ownRid c, line := line }]

/-- The ACK of a completion that a port has received or has to answer for: to the local home, or to the gateway (R81, R295). -/
def ackOut (c : Core) (line src tag : Nat) : Core :=
  if isLocal c line then homeAck c src tag else gwAck c line src tag

/-! ### What a gateway has received (R298). -/

/-- The flit of a one-flit message. -/
def rxFlit (m : SpanMsg) : OutFlit := m.flits.getD 0 { msg := m.msg }

/-- The delivered messages that no older one of the same source, class and line precedes (R50). -/
def rxReady : List SpanMsg → List SpanMsg → List SpanMsg
  | _, [] => []
  | seen, m :: t =>
    if seen.any (fun x => x.src == m.src && msgCls x.msg == msgCls m.msg && (rxFlit x).line == (rxFlit m).line)
    then rxReady (m :: seen) t else m :: rxReady (m :: seen) t

/-- The oldest delivered message of gateway k with a given property that may go on. -/
def rxFind (c : Core) (k : Nat) (p : SpanMsg → Bool) : Option SpanMsg := (rxReady [] (gwGet c k).rx).find? p

/-- Remove a delivered message. -/
def rxDrop (c : Core) (k : Nat) (m : SpanMsg) : Core := gwMod c k (fun g => { g with rx := g.rx.erase m })

/-- A snoop from a remote home (R166, R169). -/
def remoteSnoop (c : Core) (k : Nat) : Core :=
  match rxFind c k (fun m => m.flits.any (fun f => msgCls f.msg == 1)) with
  | none => c
  | some m =>
    let f := rxFlit m
    let c := pfCheck c f.line
    let own := (gwGet c k).snoops.any (fun s => s.line == f.line && s.own) ||
      (gwGet c k).lineq.any (fun r => r.src == gwOwn && r.line == f.line)
    if own then c
    else
      let c := rxDrop c k m
      let unf := (gwGet c k).unfiltered.contains (pfSet f.line)
      let ent := pfFind c f.line
      let s : GwSnoop := {
        line := f.line, home := m.src, tag := f.tag, msg := f.msg, frid := f.be.toNat % 128, ftag := f.be.toNat / 128 % 4096, waits := [] }
      if unf then
        gwSnoopSend c k s ((List.range 64).filter (fun a => !(cpGet c (portOfAgent a)).resetIn))
      else match ent with
        | some w => gwSnoopSend (pfTouch c f.line w) k s (pAgents (pfRd c k (pfSet f.line) w).bits)
        | none =>
          let c := ctrAdd c (0x98204 + 0x1000 * k) 48 1
          spanSend c k m.src .snpResp [{ msg := .snpResp, tag := f.tag, rid := ownRid c, line := f.line, gst := .i }]

/-- A victim of a line's proxy set is being back-invalidated (R168). -/
def pfFreeing (c : Core) (line : Nat) : Bool :=
  (gwGet c (pfBank line)).snoops.any (fun s => s.own && s.frid == ownVictim && pfBank s.line == pfBank line && pfSet s.line == pfSet line)

/-- Make room in a line's proxy set, then add the agent that a completion grants a state (R164, R168). Answers false where a victim's
holders must first answer. -/
def pfGrant (c : Core) (line who : Nat) (g : Gst) : Bool × Core :=
  let k := pfBank line
  let c := gwMod (pfCheck c line) k (fun y => { y with snoops := y.snoops.map (fun s =>
    if s.line = line then { s with gone := s.gone.filter (fun a => a != who) } else s) })
  let excl := g == .e || g == .m
  match pfFind c line with
  | some w =>
    let e := (pfRd c k (pfSet line) w).bits
    if excl then (true, pfTouch (pfPut c line w (pMk true (pfTag line) [who])) line w)
    else if pVec e then
      (true, pfTouch (pfPut c line w (pMk false (pfTag line) ((pAgents e) ++ (if (pAgents e).contains who then [] else [who])))) line w)
    else
      let l := (pAgents e).filter (fun a => a != who) ++ [who]
      (true, pfTouch (pfPut c line w (pMk false (pfTag line) l)) line w)
  | none =>
    match pfFree c line with
    | some w => (true, pfTouch (pfPut c line w (pMk excl (pfTag line) [who])) line w)
    | none =>
      let v := if pfFreeing c line then (none, c) else pfVictim c line
      match v.1 with
      | none => (false, v.2)
      | some w =>
        let e := (pfRd c k (pfSet line) w).bits
        let vl := pLine k (pfSet line) e
        let c := ctrAdd v.2 (0x9820C + 0x1000 * k) 48 1
        let s : GwSnoop := { line := vl, home := c.dom.inst, tag := ownTag, msg := .snpInval, frid := ownVictim, ftag := 0, waits := [], own := true }
        let c := gwSnoopSend c k s (pAgents e)
        if (pfFree c line).isSome then
          match pfFree c line with
          | some w => (true, pfTouch (pfPut c line w (pMk excl (pfTag line) [who])) line w)
          | none => (false, c)
        else (false, c)

/-- A completion from a remote home, or a CMP_DATA that a remote owner forwards to this instance's requester (R295, R298, R337). -/
def remoteDone (c : Core) (k : Nat) (p : SpanMsg → Bool) : Core :=
  match rxFind c k (fun m => (m.msg == .cmp || m.msg == .cmpData) && (rxFlit m).rid == ownRid c && p m) with
  | none => c
  | some m =>
    let f := rxFlit m
    match (gwGet c k).tags.find? (fun t => t.tag == f.tag) with
    | none => event (rxDrop c k m) 0x202 [wd (epG k), 8, loW (f.line * 64), hiW (f.line * 64)]
    | some t =>
      if t.expired then
        let c := gwMod (rxDrop c k m) k (fun g => { g with tags := g.tags.erase t })
        let c := if f.ackreq then spanSend c k t.dst .ack [{ msg := .ack, tag := t.tag, rid := ownRid c, line := f.line }] else c
        let c := if f.gst = .i ∨ f.stat.isErr then c else gwWriteBack c k t.req.line (f.gst == .m) f.data f.poison
        gwPump c k
      else
        let grant := f.gst != .i && !f.stat.isErr && decide (t.req.rid < 64)
        let g := if grant then pfGrant c t.req.line t.req.rid f.gst else (true, c)
        if !g.1 then g.2
        else
          let c := rxDrop g.2 k m
          let x : Cmp := {
            dst := t.req.src, tag := t.req.tag, data := if m.msg == .cmpData then some f.data else none, stat := f.stat
            poison := f.poison, gst := f.gst, res := f.res, ackreq := f.ackreq, line := t.req.line, phys := gwPhys k, trk := t.tag }
          let c := if t.req.src = gwOwn then c else { c with fab := { c.fab with cmps := c.fab.cmps ++ [x] } }
          let upd := fun (y : GwTag) => if y = t then { y with sent := true, ackWait := true } else y
          let keep := fun (l : List GwTag) => if f.ackreq then l.map upd else l.erase t
          gwPump (gwMod c k (fun g => { g with tags := keep g.tags })) k

/-- A completion of this instance's home leaves for the requester's gateway (R298). -/
def gwEgress (c : Core) (k : Nat) (x : Cmp) : Core :=
  let i := x.tag / 4096
  let m : Msg := if x.data.isSome then .cmpData else .cmp
  spanSend (countEj c (epG k)) k i m
    [driveForm { msg := m, tag := x.tag % 4096, rid := 80 + i, stat := x.stat, poison := x.poison, line := x.line, gst := x.gst
                 res := x.res, ackreq := x.ackreq, dv := x.data.isSome, data := x.data.getD 0, be := if x.data.isSome then beAll else 0 }]

/-- The operation of an S-port request, and whether the family carries it (R51). -/
def spanOp : Msg → Option Op
  | .rdShared => some .rdShared | .rdUnique => some .rdUnique | .rdOnce => some .rdOnce | .cleanUnique => some .cleanUnique
  | .wrFull => some .wrFull | .wrPartial => some .wrPartial | .persist => some .persist | .load => some .load
  | .store => some .store | .wbDirty => some .wbDirty | .evictClean => some .evictClean
  | _ => none

/-- The oldest REQ or WB message of a kind that gateway k has received goes to its home as requester 80 + i (R86, R298); a request of an instance
outside the domain completes with ERR_DECODE (R320). One that was sent before its sender applied a leave completes normally (R321). -/
def gwDeliver (c : Core) (k : Nat) (p : Msg → Bool) : Core :=
  match rxFind c k (fun m => p m.msg) with
  | none => c
  | some m =>
    let f := rxFlit m
    let c := countInj (rxDrop c k m) (epG k)
    let refuse := fun (st : Stat) =>
      let e := errFlit (if f.odd then none else some m.msg) f.tag (80 + m.src) f.line st
      spanSend c k m.src e.msg [e]
    let fence := m.msg == .fence || m.msg == .fenceP
    if msgCls m.msg = 0 ∧ (f.odd || !isMember c m.src) then refuse .errDecode
    else if msgCls m.msg = 0 ∧ (f.reg || (spanOp m.msg).isNone) then refuse (if !fence && noTarget c f.line then .errDecode else .errProtect)
    else match spanOp m.msg with
    | some o =>
      let r : Req := {
        op := o, src := epG k, tag := f.tag + 4096 * m.src, rid := 80 + m.src, line := f.line
        be := if o = .wrPartial ∨ o = .store ∨ o = .load then f.be else beAll, data := f.data, poison := f.poison }
      { c with fab := { c.fab with reqs := c.fab.reqs ++ [r] } }
    | none => c

end Sys2Proof.Machine
end

