-- ==== Sys2Proof/Machine/Ports.lean ====
section
/-! DEFINITION. The C- and D-ports: header checks, requester IDs, the tag map, errors at ingress, Trill, the posted-store buffer and the
D-port's order, completions at egress, ingress timeouts and port reset (R31 to R75, R203 to R235, R335, R337, R412). -/

namespace Sys2Proof.Machine

/-! ### Header checks and port errors (R46, R48, R62, R488). -/

/-- Page of a C- or D-port by its endpoint (R344). -/
def portPage (ep : Nat) : Nat := if ep < 82 then 0x80000 + 0x1000 * (ep - 66) else 0x90000 + 0x1000 * (ep - 82)

/-- The HDR_ERR flag of an endpoint. -/
def hdrFlag (ep : Nat) : Nat × Nat :=
  if ep < 90 then (portPage ep, 2) else if ep < 106 then (0x50004 + 0x100 * (ep - 90), 24) else (0x98000 + 0x1000 * (ep - 106), 9)

/-- The PROTO_ERR flag of a C-, D- or B-port. -/
def protoFlag (ep : Nat) : Nat × Nat :=
  if ep < 90 then (portPage ep, 3) else (0x50004 + 0x100 * (ep - 90), 4)

/-- PROTO_ERR: flag and event (R62, R488). -/
def protoErr (c : Core) (ep reason line : Nat) : Core :=
  event (portFlag c (protoFlag ep).1 (protoFlag ep).2) 0x202 [wd ep, wd reason, loW (line * 64), hiW (line * 64)]

/-- What the header of an inbound flit comes to. -/
inductive Fate where
  /-- Byte 0 fails, or the class is not carried: the port stops (R46, R48). -/
  | stop
  /-- Another byte fails: the flit is discarded (R46). -/
  | discard
  /-- The flit is good. -/
  | good
  deriving DecidableEq, Repr

/-- The header check, for the classes that the port carries inbound (R46, R48, R49). -/
def fate (classes : List Nat) (f : Flit) : Fate :=
  if !hdr0Ok f || !classes.contains (fClass f) then .stop else if !hdrOk f then .discard else .good

/-- Discard a flit with a bad header (R46). -/
def hdrErr (c : Core) (ep : Nat) (f : Flit) : Core :=
  event (portFlag c (hdrFlag ep).1 (hdrFlag ep).2) 0x201 [wd ep, wd (fClass f + 8 * fOpc f)]

/-- A STAT with a reserved value: poison where the message carries data, and PROTO_ERR (R62). -/
def statBad (f : Flit) : Bool := (codeStat (fStat f)).isNone

/-- POISON as R62 makes it. -/
def poisonIn (m : Msg) (f : Flit) : Bool := fPoison f || (statBad f && msgData m)

/-- Note a reserved STAT (R62). -/
def statNote (c : Core) (ep : Nat) (f : Flit) : Core := if statBad f then protoErr c ep 2 (fLine f) else c

/-! ### Trill (R203, R204). -/

/-- Least of a list of numbers, and a large number for the empty list. -/
def leastUsed (l : List Detector) : Nat := l.foldl (fun a d => min a d.used) (2 ^ 64)

/-- The lines a detector with CONF ≥ 2 prefetches now (R204). -/
def trillLines (c : Core) (d : Detector) (depth : Nat) : List Nat :=
  ((List.range depth).map (fun (k : Nat) => (d.last : Int) + ((k : Int) + 1) * d.stride)).filterMap (fun x =>
    let l := x.toNat
    let fresh := if 0 < d.stride then decide (d.issuedTo < l) else decide (l < d.issuedTo)
    if 0 ≤ x ∧ fresh ∧ instOf l = instOf d.last ∧ rgnIndex c l = rgnIndex c d.last ∧ ¬ above16T l then some l else none)

/-- A demand read trains its detector (R203). -/
def trillStep (d : Detector) (line : Nat) : Detector :=
  let delta : Int := (line : Int) - d.last
  if delta = 0 then d
  else if delta.natAbs ≤ 256 ∧ delta = d.stride then { d with conf := min (d.conf + 1) 3, last := line }
  else if delta.natAbs ≤ 256 then { d with stride := delta, conf := 1, issuedTo := line, last := line }
  else { d with stride := 0, conf := 0, last := line }

/-- Trill sees a request at a port's ingress (R203, R204); it pauses in QUIESCED and SERVICE (R385). -/
def trillSee (c : Core) (ep : Nat) (o : Op) (rid shint line : Nat) (nopf : Bool) : Core :=
  let ctl := regv c (portPage ep + 0x300)
  let demand := o == .rdShared || o == .rdUnique || o == .rdOnce || o == .load
  let paused := c.st.cur == .quiesced || c.st.cur == .service
  if !demand || paused || nopf || !isLocal c line || lineType c line != 1 || !ctl.getLsbD 0 then c
  else
    let ds := mget c.trill ep []
    let seq := ds.foldl (fun a d => max a d.used) 0 + 1
    match ds.find? (fun d => d.rid == rid && d.shint == shint) with
    | none =>
      let n : Detector := { rid := rid, shint := shint, last := line, used := seq }
      let rest := if 64 ≤ ds.length then ds.filter (fun d => d.used != leastUsed ds) else ds
      { c with trill := mput c.trill ep (rest ++ [n]) }
    | some d =>
      let d1 := { trillStep d line with used := seq }
      let dp := fld ctl 5 1
      let depth := if dp = 0 then 1 else min dp 16
      let ls := if d1.conf ≥ 2 ∧ d.last ≠ line then trillLines c d1 depth else []
      let d2 := match ls.getLast? with
        | some l => { d1 with issuedTo := l }
        | none => d1
      let c := { c with trill := mput c.trill ep (ds.map (fun x => if x = d then d2 else x)) }
      let c := ctrAdd c (portPage ep + 0x308) 48 ls.length
      let reqs := ls.map (fun l => ({ op := .prefetch, src := 128 + ep, tag := l, rid := 77, line := l } : Req))
      { c with fab := { c.fab with reqs := c.fab.reqs ++ reqs.filter (fun r => !c.fab.reqs.contains r) } }

/-! ### Requests at ingress (R55 to R61). -/

/-- Hand a request to the fabric or to its span gateway (R292). -/
def toHome (c : Core) (r : Req) : Core :=
  let c := flipHop c
  if isLocal c r.line then { c with fab := { c.fab with reqs := c.fab.reqs ++ [r] } } else gwTake c r

/-! ### C-ports. -/

/-- Requests outstanding at a C-port (R56): in a boundary FIFO, or under an internal tag; what the port gives back of its own does not
count. -/
def cOut (x : CPort) : Nat :=
  (x.inq.filter waitsReq).length + (x.tags.filter (fun t => t.counts && t.phase != .expired)).length

/-- A requester and TAG already outstanding under an internal tag (R59). -/
def tagUsed (l : List Tag) (rid utag : Nat) : Bool :=
  l.any (fun t => t.counts && t.phase != .expired && t.req.rid == rid && t.utag == utag)

/-- A payload in the reissue store of a C-port: of a REQ until its completion, of a WB_DIRTY until the hold notice (R412). -/
def storeReq (t : Tag) : Bool := t.req.op == .wrFull || t.req.op == .wrPartial

/-- A C-port's reissue store of 256 lines has room for a payload of class k: 64 are kept for WB and 64 for DAT (R412). -/
def storeRoom (x : CPort) (k : Nat) : Bool :=
  let wb := (x.tags.filter (fun t => t.held)).length
  let dat := x.recs.length
  (k == 4 && decide (wb < 64)) || (k == 3 && decide (dat < 64)) ||
    decide ((x.tags.filter storeReq).length + (wb - 64) + (dat - 64) < 128)

/-- Lowest free internal tag (R337). -/
def freeTag (l : List Tag) (n : Nat) : Option Nat := firstFree n (fun i => l.any (fun t => t.tag == i))

/-- The operation of a message that a C-port may send in REQ or WB (R51). -/
def cOp : Msg → Option Op
  | .rdShared => some .rdShared | .rdUnique => some .rdUnique | .rdOnce => some .rdOnce | .cleanUnique => some .cleanUnique
  | .wrFull => some .wrFull | .wrPartial => some .wrPartial | .persist => some .persist
  | .wbDirty => some .wbDirty | .evictClean => some .evictClean
  | _ => none

/-- The core cannot take a REQ or WB flit of a C-port now: no internal tag is free, or the reissue store has no room for its payload
(R337, R412). -/
def cFull (x : CPort) (f : Flit) : Bool :=
  let payload := match fMsg f with
    | some m => m == .wrFull || m == .wrPartial || m == .wbDirty
    | none => false
  (freeTag x.tags 1024).isNone || (payload && !storeRoom x (fClass f))

/-- A REQ or WB flit accepted at tick t0 goes on under a free internal tag (R55, R337); of a port that has closed since, its completion is
to be discarded (R72). -/
def cIssue (c : Core) (p : Nat) (f : Flit) (t0 : Nat) : Core :=
  let x := cpGet c p
  let ep := epC p
  match fMsg f, (fMsg f).bind cOp, freeTag x.tags 1024 with
  | some msg, some op, some tg =>
    let r : Req := {
      op := op, src := ep, tag := tg, rid := cRid p f, line := fLine f, be := if op = .wrPartial then fBe f else beAll
      data := if msgData msg then f.pay else 0, poison := poisonIn msg f, shint := fShint f }
    let t : Tag := { tag := tg, req := r, utag := fTag f, t0 := t0, held := op == .wbDirty, dead := x.closed }
    let c := cpMod c p (fun y => { y with tags := y.tags ++ [t] })
    toHome (trillSee (countInj (flipQueue c ep) ep) ep op (cRid p f) (fShint f) (fLine f) (fNopf f)) r
  | _, _, _ => c

/-- A REQ or WB flit that has passed its checks goes on and frees its entry, or waits there behind the flits of its class (R50, R66, R70). -/
def cEnter (c : Core) (p : Nat) (f : Flit) : Core :=
  let x := cpGet c p
  if x.inq.any (fun g => fClass g.1 == fClass f) || cFull x f then cpMod c p (fun y => { y with inq := y.inq ++ [(f, now c)] })
  else cBack (cIssue c p f (now c)) p (fClass f)

/-- A REQ or WB flit of an assigned opcode is taken at a C-port, or completed with an error (R55 to R61). -/
def cTake (c : Core) (p : Nat) (f : Flit) : Core :=
  let ep := epC p
  let c := statNote c ep f
  let x := cpGet c p
  let rid := cRid p f
  let line := fLine f
  let m := fMsg f
  let r59 := tagUsed x.tags rid (fTag f) || x.inq.any (fun g => waitsReq g && cRid p g.1 == rid && fTag g.1 == fTag f) ||
    decide (512 ≤ cOut x)
  let fence := m == some .fence || m == some .fenceP
  let dec := m.isNone || (!fence && noTarget c line)
  let prot := (m.bind cOp).isNone || fReg f || r59
  let c := if r59 then portFlag c (protoFlag ep).1 (protoFlag ep).2 else c
  let refuse := fun (st : Stat) => cBack (cpOut c p (errFlit m (fTag f) rid line st)) p (fClass f)
  if prot then refuse (if dec then .errDecode else .errProtect)
  else if !instOk c line then refuse .errDecode
  else cEnter c p f

/-- The agent's write-back for a line has been accepted, and its CMP has not left the outbound FIFO (R121). -/
def crossing (x : CPort) (agent line : Nat) : Bool :=
  x.inq.any (waitingWb agent line) ||
  x.tags.any (fun t => t.req.op.isWb && t.req.rid == agent && t.req.line == line && t.phase == .opened) ||
  x.wbOut.any (fun w => w.1 == agent && w.2.2 == line &&
    x.outq.any (fun f => f.msg == .cmp && f.rid == agent && f.tag == w.2.1))

/-- Snoop data that a failed slice has not released goes to the line's home as a WB_DIRTY, which completes to no agent (R413). -/
def resendData (c : Core) (p who line phys trk : Nat) (d : Line) (bad : Bool) : Core :=
  toHome c { op := .wbDirty, src := epC p, tag := (recRef who phys trk).tag, rid := who, line := line, be := beAll, data := d, poison := bad }

/-- A snoop answer of a C-port agent goes to the slice or gateway that sent the snoop; one that names no open snoop is discarded
(R488). -/
def cAnswer (c : Core) (p who line tag : Nat) (a : Ans) (keep : Option (Line × Bool)) : Core :=
  let x := cpGet c p
  match x.snoops.find? (fun s => s.agent == who && s.line == line && s.trk == tag) with
  | none => protoErr c (epC p) 8 line
  | some s =>
    let mark := crossing x who line
    let c := cpMod c p (fun y => { y with snoops := y.snoops.erase s })
    if 1000 ≤ s.phys ∧ gwSnoopOpen c (s.phys - 1000) line tag who = false then protoErr c (epC p) 8 line
    else if 1000 ≤ s.phys then gwPump (gwAnswer c (s.phys - 1000) line tag who a mark) (s.phys - 1000)
    else
      let c := match keep with
        | some d => cpMod c p (fun y => { y with recs := y.recs ++ [{ agent := who, line := line, phys := s.phys, trk := tag, data := d.1, poison := d.2 }] })
        | none => c
      if c.out.contains s.phys then
        match a with
        | .data _ _ d b => resendData c p who line s.phys tag d b
        | _ => c
      else homeAnswer (countInj c (epC p)) line tag who a mark

/-- The request behind an internal tag has its completion in the outbound FIFO (R56): with ACKREQ = 1 the tag waits for the ACK. -/
def cDone (c : Core) (p : Nat) (t : Tag) (f : OutFlit) (phys trk : Nat) : Core :=
  let c := countOp (countEj c (epC p)) (epC p) t.req.op t.t0
  let c := cpMod c p (fun y => { y with
    tags := if f.ackreq then y.tags.map (fun z => if z = t then { z with phase := .ackWait, phys := phys, trk := trk } else z)
            else y.tags.erase t
    wbOut := if t.req.op.isWb then
        (y.wbOut.filter (fun w => y.outq.any (fun g => g.rid == w.1 && g.tag == w.2.1))) ++ [(t.req.rid, t.utag, t.req.line)]
      else y.wbOut })
  cpOut c p f

/-- A completion for an expired internal tag, or for a port in reset: it is discarded, its ACK is sent, and what it grants is given back
(R72 step 3, R337). -/
def cLate (c : Core) (p : Nat) (t : Tag) (x : Cmp) : Core :=
  let c := cpMod c p (fun y => { y with tags := y.tags.erase t })
  let c := if x.ackreq then ackOut c t.req.line t.req.src t.req.tag else c
  if t.dead ∨ x.gst = .i ∨ x.stat.isErr then c
  else
    match freeTag (cpGet c p).tags 1024 with
    | none => c
    | some tg =>
      let r : Req := {
        op := if x.gst = .m then .wbDirty else .evictClean, src := epC p, tag := tg, rid := t.req.rid, line := t.req.line
        be := beAll, data := if x.gst = .m then x.data.getD 0 else 0, poison := x.poison }
      let n : Tag := { tag := tg, req := r, utag := 0, t0 := now c, dead := true, counts := false, held := x.gst == .m }
      toHome (cpMod c p (fun y => { y with tags := y.tags ++ [n] })) r

/-- A forwarded CMP_DATA reaches the requester's port under its internal tag (R52, R82). -/
def cForwarded (c : Core) (p frid ftag : Nat) (g : Gst) (st : Stat) (d : Line) (poison : Bool) (line from_ : Nat) : Core :=
  match (cpGet c p).tags.find? (fun t => t.tag == ftag && t.req.rid == frid && t.phase != .ackWait && !t.req.op.isWb) with
  | none => protoErr c from_ 8 line
  | some t =>
    let x : Cmp := { dst := epC p, tag := ftag, data := some d, stat := st, poison := poison, gst := g, ackreq := true, line := line }
    if t.phase = .expired ∨ t.dead then cLate c p t x
    else
      cDone c p t { msg := .cmpData, tag := t.utag, rid := frid, stat := if poison then .okPoison else st, poison := poison
                    line := line, gst := g, ackreq := true, dv := true, data := d, be := beAll } 0 0

/-- Route a forwarded CMP_DATA by its FRID: to a port, or to the gateway of another instance (R52, R298). -/
def forward (c : Core) (from_ frid ftag : Nat) (g : Gst) (st : Stat) (d : Line) (poison : Bool) (line : Nat) : Core :=
  if frid < 64 then cForwarded c (portOfAgent frid) frid ftag g st d poison line from_
  else if 80 ≤ frid ∧ frid < 96 then
    let k := pfBank line
    if isLocal c line then
      match trkOfReq c (epG k) (ftag + 4096 * (frid - 80)) with
      | none => protoErr c from_ 8 line
      | some _ =>
        spanSend c k (frid - 80) .cmpData [{ msg := .cmpData, tag := ftag, rid := frid, stat := if poison then .okPoison else st
                                             poison := poison, line := line, gst := g, ackreq := true, dv := true, data := d, be := beAll }]
    else spanSend c k (frid - 80) .cmpData [{ msg := .cmpData, tag := ftag, rid := frid, stat := if poison then .okPoison else st
                                              poison := poison, line := line, gst := g, ackreq := true, dv := true, data := d, be := beAll }]
  else protoErr c from_ 8 line

/-! ### D-ports: the posted-store buffer and the port's order (R207 to R236). -/

/-- The line is local and DEVICE (R232). -/
def isDevice (c : Core) (line : Nat) : Bool := isLocal c line && lineType c line == 2

/-- Requests outstanding at a D-port (R56): in the boundary FIFO, waiting, or under an internal tag. -/
def dOut (x : DPort) : Nat :=
  x.fifo.length + x.loads.length + (match x.waiting with
    | some a => if x.tags.any (fun t => t.counts && t.phase != .expired && t.utag == a.utag) then 0 else 1
    | none => 0) + (x.tags.filter (fun t => t.counts && t.phase != .expired)).length

/-- A TAG outstanding at a D-port (R59). -/
def dTagUsed (x : DPort) (utag : Nat) : Bool :=
  x.fifo.any (fun a => a.utag == utag) || x.loads.any (fun l => l.1.utag == utag) || (match x.waiting with | some a => a.utag == utag | none => false) ||
    x.tags.any (fun t => t.counts && t.phase != .expired && t.utag == utag)

/-- Lowest free internal tag of a D-port; the posted-store buffer uses them too (R337). -/
def dFreeTag (x : DPort) : Option Nat :=
  firstFree 512 (fun i => x.tags.any (fun t => t.tag == i) || x.psb.any (fun b => b.tag == i))

/-- The message of an operation is answered with data (R60). -/
def dMsg (a : Access) : Msg := opMsg a.req.op

/-- Complete a D-port access that never reaches a home. -/
def dAnswer (c : Core) (d : Nat) (a : Access) (st : Stat) (data : Option Line) (pois res : Bool) : Core :=
  let rd := data.isSome || (st.isErr && readMsg (dMsg a))
  let c := if a.req.reg ∨ a.req.op = .store then c else countOp c (epD d) a.req.op a.t0
  dpOut (countEj c (epD d)) d
    { msg := if rd then .cmpData else .cmp, tag := a.utag, rid := 64 + d, stat := st, poison := pois, line := a.req.line
      res := res, dv := rd, data := data.getD 0, be := if rd then beAll else 0 }

/-- Issue an access to its home or gateway under an internal tag; none free: it stays where it is. -/
def dIssue (c : Core) (d : Nat) (a : Access) (counts : Bool) : Option Core :=
  match dFreeTag (dpGet c d) with
  | none => none
  | some tg =>
    let r := { a.req with tag := tg }
    let t : Tag := { tag := tg, req := r, utag := a.utag, t0 := a.t0, counts := counts }
    some (toHome (countInj (dpMod (flipQueue c (epD d)) d (fun y => { y with tags := y.tags ++ [t] })) (epD d)) r)

/-- A failure is recorded (R227, DPT_FENCE_ERR). -/
def dFail (c : Core) (d : Nat) (st : Stat) (line : Nat) : Core :=
  let pg := 0x90000 + 0x1000 * d
  let c := dpMod c d (fun y => { y with epoch := match y.epoch with | some e => some e | none => some st })
  let had := flagv c (pg + 0x408) 0
  let v := ctrv c (pg + 0x408)
  let c := if had then ctrSet c (pg + 0x408) (v % 256 + 256 * min (v / 256 + 1) 255)
    else ctrSet (ctrSet c (pg + 0x408) (16 * statCode st + 256)) (pg + 0x40C) (line * 64)
  let c := if had then hwSet c (pg + 0x408) 1 else c
  event (portFlag c (pg + 0x408) 0) 0x204 [wd (epD d), wd (statCode st), loW (line * 64), hiW (line * 64)]

/-- A PERSIST that the D-port issues of its own; with no internal tag free it waits for one (R228, R229). -/
def dPersist (c : Core) (d line : Nat) : Core :=
  let r : Req := { op := .persist, src := epD d, tag := 0, rid := 64 + d, line := line, be := beAll }
  match dIssue c d { req := r, utag := 0, t0 := now c } false with
  | some c' => c'
  | none => dpMod c d (fun y => { y with early := y.early ++ [line] })

/-- PERSISTs that waited for an internal tag are issued, oldest first. -/
def dRetry (c : Core) (d : Nat) : Core :=
  let l := (dpGet c d).early
  l.foldl (fun c line => dPersist c d line) (dpMod c d (fun y => { y with early := [] }))

/-- A LOAD_RES or STORE_COND completes with an error at its port: the recorded granule is cleared (R221, R222), and a STORE_COND counts among
those with RES = 0. -/
def dRefused (c : Core) (d : Nat) (o : Op) : Core :=
  match o with
  | .loadRes => dpMod c d (fun y => { y with granule := none })
  | .storeCond => ctrAdd (dpMod c d (fun y => { y with granule := none })) (0x90418 + 0x1000 * d) 32 1
  | _ => c

/-- The port's own view of a reservation access to a local line: refused by the type of its region (R61, R231). -/
def resvStat (c : Core) (line : Nat) : Option Stat :=
  match lineType c line with
  | 0 => some .errDecode
  | 1 => none
  | 3 => some (if wareIn c line then .errProtect else .errDecode)
  | _ => some .errProtect

/-- Put a line on the durability list (R228). -/
def dList (c : Core) (d line : Nat) : Core :=
  let skip := isLocal c line && (lineType c line == 2 || lineType c line == 3 ||
    (match rgnIndex c line with | some r => rgnStrict (rgnCur c r) | none => false))
  let l := (dpGet c d).dlist
  if skip || l.contains line then c
  else if 128 ≤ l.length then
    dPersist (dpMod c d (fun y => { y with dlist := l.tail ++ [line] })) d (l.headD 0)
  else dpMod c d (fun y => { y with dlist := l ++ [line] })

/-- Every older buffered STORE is freed and every older LOAD and PERSIST has completed (R216). -/
def dQuiet (x : DPort) : Bool :=
  x.older == 0 && x.loads == [] && !(x.tags.any (fun t => t.counts && t.phase == .opened))

/-- PERSISTs of the port itself are outstanding (R229). -/
def dEarly (x : DPort) : Bool := x.early != [] || x.tags.any (fun t => !t.counts && t.phase == .opened)

/-- An open access of the port to a local DEVICE line (R232). -/
def dDevOpen (c : Core) (x : DPort) : Bool :=
  x.tags.any (fun t => t.phase == .opened && isDevice c t.req.line) || x.psb.any (fun b => b.issued && isDevice c b.line)

/-- R210: the status of a STORE that the port refuses. -/
def storeCheck (c : Core) (line : Nat) : Option Stat :=
  if !instOk c line then some .errDecode
  else if isLocal c line ∧ lineType c line = 0 then some .errDecode
  else if isLocal c line ∧ wrefOf c line then some .errExhausted
  else none

/-- The youngest buffered STORE to a line (R215). -/
def youngest (x : DPort) (line : Nat) : Option Psb := (x.psb.filter (fun b => b.line == line)).getLast?

/-- Start the access that waits under R216 once everything older has ended: a reservation access goes to its home, or is answered at
the port (R220, R222). -/
def dStart (c : Core) (d : Nat) : Core :=
  let x := dpGet c d
  match x.waiting with
  | none => c
  | some a =>
    if !dQuiet x || x.tags.any (fun t => t.counts && t.phase == .opened) then c
    else match a.req.op with
      | .loadRes => if a.req.reg then c else (dIssue c d a true).getD c
      | .storeCond =>
        let done := fun (st : Stat) => dAnswer (dpMod (dRefused c d .storeCond) d (fun y => { y with waiting := none })) d a st none false false
        match resvStat c a.req.line with
        | some st => done st
        | none =>
          if x.granule = some (a.req.line / 2) then (dIssue (dpMod c d (fun y => { y with granule := none })) d a true).getD c
          else done .ok
      | _ => c

/-- A LOAD may be issued (R209, R215, R232): no STORE to its line is buffered before it; for a local DEVICE line, no STORE at all, and
every older DEVICE access has completed. `n`: the buffered STOREs older than it; `before`: the LOADs that wait before it. -/
def loadReady (c : Core) (x : DPort) (before : List (Access × Nat)) (line n : Nat) : Bool :=
  if isDevice c line then n == 0 && !dDevOpen c x && !before.any (fun l => isDevice c l.1.req.line)
  else !(x.psb.take n).any (fun b => b.line == line) && !before.any (fun l => l.1.req.line == line)

/-- The waiting LOADs that may go are issued, oldest first (R215, R232). -/
def dLoads (c : Core) (d : Nat) : Core :=
  (dpGet c d).loads.foldl (fun c l =>
    let x := dpGet c d
    if x.closed || !portsUp c || !loadReady c x (x.loads.takeWhile (fun y => y != l)) l.1.req.line l.2 then c
    else (dIssue (dpMod c d (fun y => { y with loads := y.loads.erase l })) d l.1 true).getD c) c

/-- The port takes requests from the head of its REQ boundary FIFO as far as its order lets it (R209, R211, R215 to R217, R232): a LOAD
that has to wait does not hold back what follows it. -/
def dPumpN : Nat → Core → Nat → Core
  | 0, c, d => dStart (dLoads c d) d
  | n + 1, c, d =>
    let c := dStart (dLoads c d) d
    let x := dpGet c d
    match x.fifo with
    | [] => c
    | a :: rest =>
      let pop := fun (c : Core) => dBack (dpMod c d (fun y => { y with fifo := rest })) d
      if x.closed || !portsUp c then c
      else match a.req.op, a.req.reg with
        | .store, false =>
          match storeCheck c a.req.line with
          | some st => dPumpN n (dAnswer (pop c) d a st none false false) d
          | none => c
        | .load, false =>
          if x.waiting.isSome then c
          else match (if isDevice c a.req.line then none else (youngest x a.req.line).filter (fun b => a.req.be &&& ~~~ b.be == 0)) with
            | some b =>
              let c := ctrAdd (pop c) (0x9041C + 0x1000 * d) 32 1
              dPumpN n (dAnswer c d a (if b.poison then .okPoison else .ok) (some (selectLine a.req.be b.data)) b.poison false) d
            | none =>
              if loadReady c x x.loads a.req.line x.psb.length then
                match dIssue (pop c) d a true with | some c' => dPumpN n c' d | none => c
              else dPumpN n (dpMod (pop c) d (fun y => { y with loads := y.loads ++ [(a, y.psb.length)] })) d
        | .persist, _ =>
          if x.waiting.isSome then c else match dIssue (pop c) d a true with | some c' => dPumpN n c' d | none => c
        | o, _ =>
          if x.waiting.isSome then c
          else if (o == .loadRes || o == .storeCond) && !isLocal c a.req.line then
            let c := pop c
            let c := if o = .storeCond then ctrAdd c (0x90418 + 0x1000 * d) 32 1 else c
            dPumpN n (dAnswer c d a .errProtect none false false) d
          else dPumpN n (dpMod (pop c) d (fun y => { y with waiting := some a, older := y.psb.length, fencing := false })) d

/-- An open D-port grants its initial credits (R64, R72 step 7). -/
def dGrant (c : Core) (d : Nat) : Core :=
  if (dpGet c d).closed || !portsUp c then c
  else
    let l := firstCredits c depthD
    crdOpen (dpMod c d (fun y => { y with inCrd := l.1, owed := l.2 })) (epD d) l.1

/-- The drain of a D-port in reset has ended: its reservations are cancelled, the durability list is emptied and a new epoch begins
(R74, R234). The port opens where its reset is deasserted. -/
def dResolve (c : Core) (d : Nat) : Core :=
  let x := dpGet c d
  if x.closed && x.psb == [] && x.early == [] && !(x.tags.any (fun t => t.phase == .opened)) then
    let c := { c with arr := { c.arr with mon := c.arr.mon.filter (fun p => p.1 % 12 != d) } }
    let open_ := !x.resetIn && !x.stopped
    let c := dpMod c d (fun y => { y with
      dlist := [], epoch := none, granule := none, loads := [], waiting := none, fencing := false, older := 0, closed := !open_ })
    dGrant c d
  else c

/-- Let a D-port go as far as it can. -/
def dPump (c : Core) (d : Nat) : Core := dResolve (dPumpN (dpGet c d).fifo.length (dRetry c d) d) d

/-- The operation of a message that a D-port may send (R51). -/
def dOp : Msg → Option Op
  | .persist => some .persist | .load => some .load | .store => some .store | .loadRes => some .loadRes
  | .storeCond => some .storeCond | .fence => some .fence | .fenceP => some .fenceP
  | _ => none

/-- A REG access is well formed: one aligned group of 4 bytes, and address bits [51:24] zero (R42). -/
def regForm (f : Flit) : Bool :=
  ((List.range 16).any (fun g => fBe f == BitVec.ofNat 64 (15 * 2 ^ (4 * g)))) && decide (fLine f < 2 ^ 18)

/-- A good REQ flit is taken at a D-port (R42, R55 to R61, R207). -/
def dTake (c : Core) (d : Nat) (f : Flit) : Core :=
  let ep := epD d
  let c := statNote c ep f
  let x := dpGet c d
  let line := fLine f
  let m := fMsg f
  let o := m.bind dOp
  let r59 := dTagUsed x (fTag f) || decide (256 ≤ dOut x)
  let fence := m == some .fence || m == some .fenceP
  let rw := m == some .load || m == some .store
  let reg := fReg f
  let dec := m.isNone || (reg && rw && !regForm f) || (!fence && !(reg && rw) && noTarget c line)
  let prot := o.isNone || (reg && !rw) || r59
  let c := if r59 then portFlag c (protoFlag ep).1 (protoFlag ep).2 else c
  let refuse := fun (st : Stat) =>
    let c := match o with
      | some op => if r59 then c else dRefused c d op
      | none => c
    dBack (dpOut c d (errFlit m (fTag f) (64 + d) line st)) d
  if prot then refuse (if dec then .errDecode else .errProtect)
  else if (reg && !regForm f) || (!fence && !reg && !instOk c line) then refuse .errDecode
  else
    match o, m with
    | some op, some msg =>
      let sel := op == .load || op == .store || op == .loadRes || op == .storeCond
      let r : Req := {
        op := op, src := ep, tag := 0, rid := 64 + d, line := if fence then 0 else line, be := if sel then fBe f else beAll
        data := if msgData msg then f.pay else 0, poison := poisonIn msg f, priv := fPriv f, sec := fSecure f, reg := reg
        shint := fShint f }
      let c := if reg then c else trillSee c ep op (64 + d) (fShint f) line (fNopf f)
      dPump (dpMod c d (fun y => { y with fifo := y.fifo ++ [{ req := r, utag := fTag f, t0 := now c }] })) d
    | _, _ => dBack c d

/-- A STORE at the head of the boundary FIFO enters the buffer and completes with OK (R211). -/
def storeIn (c : Core) (d : Nat) : Core :=
  let x := dpGet c d
  match x.fifo with
  | [] => c
  | a :: rest =>
    if x.closed ∨ a.req.op ≠ .store ∨ a.req.reg = true ∨ (storeCheck c a.req.line).isSome ∨ 64 ≤ x.psb.length then c
    else match dFreeTag x with
      | none => c
      | some tg =>
        let b : Psb := { tag := tg, line := a.req.line, be := a.req.be, data := a.req.data, poison := a.req.poison }
        let c := dBack (dpMod (flipQueue c (epD d)) d (fun y => { y with fifo := rest, psb := y.psb ++ [b] })) d
        dPump (dAnswer c d a .ok none false false) d

/-- The buffer issues its next STORE (R209, R213, R216, R232), in FLUSH under R245. -/
def storeOut (c : Core) (d : Nat) : Core :=
  let x := dpGet c d
  let fl := c.st.cur == .flush
  match x.psb.find? (fun b => !b.issued) with
  | none => c
  | some b =>
    let before := x.psb.takeWhile (fun y => y.tag != b.tag)
    let serial := (regv c (0x90400 + 0x1000 * d)).getLsbD 0 && before.any (fun y => y.issued)
    let young := x.waiting.isSome && decide (x.older ≤ before.length)
    let dev := (isDevice c b.line && dDevOpen c x) || before.any (fun y => y.issued && isDevice c y.line)
    let early := x.loads.any (fun l => decide (l.2 ≤ before.length) &&
      (l.1.req.line == b.line || (isDevice c b.line && isDevice c l.1.req.line)))
    let same := fl && before.any (fun y => y.line == b.line)
    if (!fl && (serial || young || dev || early)) || same then c
    else
      let r : Req := {
        op := .store, src := epD d, tag := b.tag, rid := 64 + d, line := b.line, be := b.be, data := b.data, poison := b.poison }
      let c := dpMod c d (fun y => { y with psb := y.psb.map (fun z =>
        if z.tag = b.tag then { z with issued := true, t0 := now c } else z) })
      toHome (countInj c (epD d)) r

/-- An entry of the buffer is freed (R214, R227, R228). -/
def storeFree (c : Core) (d : Nat) (b : Psb) (st : Stat) : Core :=
  let x := dpGet c d
  let idx := (x.psb.takeWhile (fun y => y.tag != b.tag)).length
  let c := dpMod c d (fun y => { y with psb := y.psb.filter (fun z => z.tag != b.tag)
                                        loads := y.loads.map (fun l => if idx < l.2 then (l.1, l.2 - 1) else l)
                                        older := if x.waiting.isSome ∧ idx < y.older then y.older - 1 else y.older })
  let c := if st = .okPoison then hwSet c (0x90408 + 0x1000 * d) 2
    else if st.isErr then dFail c d st b.line else c
  let c := if st = .ok then dList c d b.line else c
  dPump c d

/-- The first completion on its way to an endpoint under a tag. -/
def cmpFor (c : Core) (dst tag : Nat) : Option Cmp := c.fab.cmps.find? (fun x => x.dst == dst && x.tag == tag)

/-- The data of a completion fails its payload check at the ejecting endpoint, and again after the resend: it is treated as poisoned, and
DATA_REFAIL latches, the sender being a slice or a gateway (R400). -/
def cmpRefails (c : Core) (dst tag : Nat) : Core :=
  match cmpFor c dst tag with
  | none => c
  | some x =>
    if x.data.isNone || x.stat.isErr then c
    else alarm { c with fab := { c.fab with cmps := c.fab.cmps.map (fun y => if y = x then { x with poison := true, stat := .okPoison } else y) } } 10

/-- Remove a completion from those on their way. -/
def cmpTaken (c : Core) (x : Cmp) : Core := { c with fab := { c.fab with cmps := c.fab.cmps.erase x } }

/-- The home's CMP for a drained STORE reaches the buffer (R214). -/
def storeDone (c : Core) (d tag : Nat) : Core :=
  match cmpFor c (epD d) tag with
  | none => c
  | some x =>
    match (dpGet c d).psb.find? (fun b => b.tag == tag) with
    | some b =>
      let c := cmpTaken c x
      let c := if x.ackreq then ackOut c b.line (epD d) tag else c
      storeFree (countOp c (epD d) .store b.t0) d b x.stat
    | none => c

/-- A FENCE or FENCE_P completes (R225). -/
def fenceDone (c : Core) (d : Nat) (a : Access) : Core :=
  let st := ((dpGet c d).epoch).getD .ok
  let c := dpMod c d (fun y => { y with waiting := none, fencing := false, epoch := none })
  dPump (dAnswer c d a st none false false) d

/-- The waiting FENCE is issued and completes (R225). -/
def fenceRun (c : Core) (d : Nat) : Core :=
  let x := dpGet c d
  match x.waiting with
  | some a => if a.req.op = .fence ∧ dQuiet x = true then fenceDone c d a else c
  | none => c

/-- The waiting FENCE_P issues its PERSISTs, and completes once every PERSIST of the port has (R229). -/
def fencePRun (c : Core) (d : Nat) : Core :=
  let x := dpGet c d
  match x.waiting with
  | some a =>
    if a.req.op = .fenceP ∧ dQuiet x = true then
      let c := if x.fencing then c
        else x.dlist.foldl (fun c l => dPersist c d l) (dpMod c d (fun y => { y with fencing := true, dlist := [] }))
      if dEarly (dpGet c d) then c else fenceDone c d a
    else c
  | none => c

/-- A completion reaches a D-port's egress (R58, R221, R227 to R229). -/
def dDone (c : Core) (d : Nat) (t : Tag) (x : Cmp) : Core :=
  let c := dpMod c d (fun y => { y with tags := y.tags.erase t })
  let c := if x.ackreq then ackOut c t.req.line t.req.src t.req.tag else c
  if t.phase = .expired then dPump c d
  else if !t.counts then
    let c := if x.stat.isErr then dFail c d x.stat t.req.line else c
    fencePRun (dPump c d) d
  else
    let a : Access := { req := t.req, utag := t.utag, t0 := t.t0 }
    let c := dAnswer c d a x.stat x.data x.poison x.res
    let mine := match (dpGet c d).waiting with
      | some w => w.utag == t.utag && w.req.op == t.req.op
      | none => false
    let c := if mine then dpMod c d (fun y => { y with waiting := none }) else c
    let c := match t.req.op with
      | .loadRes => dpMod c d (fun y => { y with granule := if x.stat.isErr then none else some (t.req.line / 2) })
      | .storeCond =>
        let c := ctrAdd c (0x90414 + 0x1000 * d + (if x.res then 0 else 4)) 32 1
        if x.res ∧ x.stat = .ok then dList c d t.req.line else c
      | _ => c
    dPump c d

/-- A completion reaches its port or gateway (R337). -/
def egress (c : Core) (r : Ref) : Core :=
  match cmpFor c r.src r.tag with
  | none => c
  | some x =>
    if 66 ≤ r.src ∧ r.src < 82 then
      let p := r.src - 66
      let c := cmpTaken c x
      match (cpGet c p).tags.find? (fun t => t.tag == r.tag) with
      | none => if x.ackreq then ackOut c x.line r.src r.tag else c
      | some t =>
        if t.phase = .expired ∨ t.dead then cLate c p t x
        else if t.phase = .ackWait then cpMod (cLate c p t x) p (fun y => { y with tags := y.tags ++ [t] })
        else
          cDone c p t { msg := if x.data.isSome then .cmpData else .cmp, tag := t.utag, rid := t.req.rid, stat := x.stat
                        poison := x.poison, line := x.line, gst := x.gst, res := x.res, ackreq := x.ackreq, dv := x.data.isSome
                        data := x.data.getD 0, be := if x.data.isSome then beAll else 0 } x.phys x.trk
    else if 82 ≤ r.src ∧ r.src < 90 then
      let d := r.src - 82
      match (dpGet c d).tags.find? (fun t => t.tag == r.tag) with
      | none => if (dpGet c d).psb.any (fun b => b.tag == r.tag) then c
          else if x.ackreq then ackOut (cmpTaken c x) x.line r.src r.tag else cmpTaken c x
      | some t => dDone (cmpTaken c x) d t x
    else if 106 ≤ r.src ∧ r.src < 110 then gwEgress (cmpTaken c x) (r.src - 106) x
    else cmpTaken c x

/-! ### Ingress timeouts (R335, R337). -/

/-- The status of a timed-out request (R337). -/
def tmoStat (c : Core) (line t0 : Nat) : Stat := if isLocal c line then .errTimeout else remoteTmo c (instOf line) t0

/-- The ingress timeout of a request expires: at a C-port, at a D-port (an access issued, buffered or still waiting) or at a gateway.
`tag` names the internal tag; for an access of a D-port that is not yet issued it is 1,024 plus the requester's TAG, for a flit that waits at a
C-port 1,024 plus its place in the inbound boundary FIFOs. -/
def ingressTmo (c : Core) (r : Ref) : Core :=
  let due := fun (t0 : Nat) => decide (t0 + reqTmo c ≤ now c)
  if 66 ≤ r.src ∧ r.src < 82 then
    let p := r.src - 66
    if 1024 ≤ r.tag then
      match (cpGet c p).inq[r.tag - 1024]? with
      | some g =>
        if !waitsReq g || !due g.2 then c
        else
          let c := cBack (cpMod (ctrSat c 0x6000C 8 1) p (fun y => { y with inq := y.inq.erase g })) p (fClass g.1)
          if (cpGet c p).closed then c
          else cpOut c p (errFlit (fMsg g.1) (fTag g.1) (cRid p g.1) (fLine g.1) (tmoStat c (fLine g.1) g.2))
      | none => c
    else match (cpGet c p).tags.find? (fun t => t.tag == r.tag && t.phase == .opened) with
    | none => c
    | some t =>
      if !due t.t0 then c
      else
        let c := ctrSat c 0x6000C 8 1
        let c := cpMod c p (fun y => { y with tags := y.tags.map (fun z => if z = t then { z with phase := .expired } else z) })
        if t.dead then c
        else cpOut c p (errFlit (some (opMsg t.req.op)) t.utag t.req.rid t.req.line (tmoStat c t.req.line t.t0))
  else if 82 ≤ r.src ∧ r.src < 90 then
    let d := r.src - 82
    let x := dpGet c d
    if 1024 ≤ r.tag then
      let u := r.tag - 1024
      match x.waiting, x.fifo.find? (fun a => a.utag == u) with
      | some a, none =>
        if a.utag = u ∧ a.req.op ≠ .fence ∧ a.req.op ≠ .fenceP ∧ due a.t0 = true ∧ dTagUsed { x with waiting := none, fifo := [] } u = false then
          let c := dRefused (dpMod (ctrSat c 0x6000C 8 1) d (fun y => { y with waiting := none })) d a.req.op
          dPump (dAnswer c d a (tmoStat c a.req.line a.t0) none false false) d
        else c
      | _, some a =>
        if a.req.op ≠ .fence ∧ a.req.op ≠ .fenceP ∧ due a.t0 = true then
          let c := dRefused (dBack (dpMod (ctrSat c 0x6000C 8 1) d (fun y => { y with fifo := y.fifo.erase a })) d) d a.req.op
          dPump (dAnswer c d a (tmoStat c a.req.line a.t0) none false false) d
        else c
      | none, none =>
        match x.loads.find? (fun l => l.1.utag == u) with
        | some l =>
          if due l.1.t0 then
            dPump (dAnswer (dpMod (ctrSat c 0x6000C 8 1) d (fun y => { y with loads := y.loads.erase l })) d l.1
              (tmoStat c l.1.req.line l.1.t0) none false false) d
          else c
        | none => c
    else match x.tags.find? (fun t => t.tag == r.tag && t.phase == .opened) with
      | some t =>
        if !due t.t0 then c
        else
          let st := tmoStat c t.req.line t.t0
          let c := ctrSat c 0x6000C 8 1
          let c := dpMod c d (fun y => { y with tags := y.tags.map (fun z => if z = t then { z with phase := .expired } else z) })
          if !t.counts then fencePRun (dPump (dFail c d st t.req.line) d) d
          else
            let c := dAnswer c d { req := t.req, utag := t.utag, t0 := t.t0 } st none false false
            let mine := match (dpGet c d).waiting with
              | some w => w.utag == t.utag
              | none => false
            let c := if mine then dRefused (dpMod c d (fun y => { y with waiting := none })) d t.req.op else c
            dPump c d
      | none => match x.psb.find? (fun b => b.tag == r.tag && b.issued) with
        | some b =>
          if !due b.t0 then c
          else
            let t : Tag := {
              tag := b.tag, req := { op := .store, src := epD d, tag := b.tag, rid := 64 + d, line := b.line }, utag := 0, t0 := b.t0
              phase := .expired, counts := false }
            storeFree (dpMod (ctrSat c 0x6000C 8 1) d (fun y => { y with tags := y.tags ++ [t] })) d b (tmoStat c b.line b.t0)
        | none => c
  else if 106 ≤ r.src ∧ r.src < 110 then
    let k := r.src - 106
    match (gwGet c k).tags.find? (fun t => t.tag == r.tag && !t.expired && !t.ackWait) with
    | none => c
    | some t =>
      if !due t.t0 then c
      else
        let c := gwMod (ctrSat c 0x6000C 8 1) k (fun g => { g with tags := g.tags.map (fun y => if y = t then { y with expired := true } else y) })
        let rd := readMsg (opMsg t.req.op)
        let x : Cmp := { dst := t.req.src, tag := t.req.tag, data := if rd then some 0 else none, stat := remoteTmo c t.dst t.t0, line := t.req.line }
        if t.req.src = gwOwn then c else { c with fab := { c.fab with cmps := c.fab.cmps ++ [x] } }
  else c

/-! ### Closing and reopening C- and D-ports (R46, R72 to R74). -/

/-- Awaited write-backs of a closed port's agents that no flit in the core can bring any more end under R125. -/
def cNoWb (c : Core) (p : Nat) : Core :=
  c.arr.trk.foldl (fun c t => t.awaitWb.foldl (fun c a =>
    if a.1 < 64 ∧ portOfAgent a.1 = p ∧ wbComing c a.1 t.req.line = false then
      homeNoWb (lostNote c a.1 t.req.line) t.req.line t.idx a.1
    else c) c) c

/-- A snoop that a flit of the inbound DAT FIFO answers: the flit is delivered although the port has closed (R72 step 2). -/
def answered (x : CPort) (p : Nat) (s : PortSnoop) : Bool :=
  x.inq.any (fun g => fMsg g.1 == some .snpRespData && cRid p g.1 == s.agent && fLine g.1 == s.line && fTag g.1 == s.trk)

/-- Close a C-port: steps 1 to 4 of R72. An open snoop is answered with SNP_RESP, GST = I; where R121 then makes the home wait for a
write-back that cannot come, R125 applies. -/
def cClose (c : Core) (p : Nat) : Core :=
  let x := cpGet c p
  if x.closed then c
  else
    let acks := x.tags.filter (fun t => t.phase == .ackWait)
    let c := cpMod c p (fun y => { y with
      closed := true, purging := true, credits := [0, 0, 0, 0, 0, 0], inCrd := [0, 0, 0, 0, 0, 0], owed := 0
      inq := y.inq.filter (fun g => fClass g.1 != 0), outq := [], wbOut := [], snoops := y.snoops.filter (answered y p)
      tags := (y.tags.filter (fun t => t.phase != .ackWait)).map (fun t => { t with dead := true }) })
    let c := { c with trill := mdel c.trill (epC p) }
    let c := acks.foldl (fun c t => ackOut c t.req.line t.req.src t.req.tag) c
    let c := (x.snoops.filter (fun s => !answered x p s)).foldl (fun c s =>
      let mark := x.inq.any (waitingWb s.agent s.line) || x.tags.any (fun t => t.req.op.isWb && t.req.rid == s.agent && t.req.line == s.line)
      if 1000 ≤ s.phys then gwPump (gwAnswer c (s.phys - 1000) s.line s.trk s.agent (.resp .i) mark) (s.phys - 1000)
      else homeAnswer c s.line s.trk s.agent (.resp .i) mark) c
    cNoWb c p

/-- An open C-port grants its initial credits (R64, R72 step 7). -/
def cGrant (c : Core) (p : Nat) : Core :=
  if (cpGet c p).closed || !portsUp c then c
  else
    let l := firstCredits c depthC
    crdOpen (cpMod c p (fun y => { y with inCrd := l.1, owed := l.2 })) (epC p) l.1

/-- The port opens: its initial credits are returned and the far side's grants accepted (R72 step 7). -/
def cOpen (c : Core) (p : Nat) : Core :=
  let y := cpGet c p
  if y.closed && !y.resetIn && !y.stopped && !y.purging then cGrant (cpMod c p (fun y => { y with closed := false })) p else c

/-- The purge of a reset port so far: the lines it has poisoned, and whether it has passed over one that finds no place. -/
structure Purge where
  core : Core
  poisoned : List Nat
  left : Bool := false

/-- One line leaves a reset port's agents: they leave the entry, and an EXCLUSIVE one of them poisons the line. An entry whose poison finds no place
stays for now (R72 step 5, R73). -/
def purgeWay (p : Nat) (x : Purge) (s si w : Nat) : Purge :=
  let c := x.core
  let e := (sfRd c s si w).bits
  let mine := fun (i : Nat) => decide (i < 64) && portOfAgent i == p
  if eState e = 0 ∨ !(eSharers c e).any mine then x
  else
    let line := eLine c si e
    let e' := if eVec e then
        let sh := eShr e &&& (2 ^ 24 - 1 - 2 ^ p)
        if sh = 0 then 0 else mkEntry 1 true (eTag e) sh (eLtag e)
      else
        let l := ((eSlots e).filter (fun j => j != 127)).filter (fun i => !mine i)
        if l = [] then 0 else mkEntry (eState e) false (eTag e) (exactShr l) (eLtag e)
    let fin := fun (c : Core) => (sfPut c s noTrk line w e').1
    if eState e ≠ 2 then { x with core := fin c }
    else if lineType c line ≠ 1 then { x with core := fin c, poisoned := x.poisoned ++ [line] }
    else match poisonLine c s line with
      | some c' => { x with core := fin c', poisoned := x.poisoned ++ [line] }
      | none => { x with left := true }
where
  /-- The home's value of a line becomes poison in every copy, also in one on its way; none where there is no place for it. -/
  poisonLine (c : Core) (s line : Nat) : Option Core :=
    let c := { c with
      fab := { c.fab with mirW := c.fab.mirW.map (fun m => if m.line = line then { m with poison := true } else m) }
      arr := { c.arr with hold := c.arr.hold.map (fun h => if h.line = line then { h with poison := true, bundle := none } else h) } }
    match dirtyLoc c line with
    | some (ph, cs, v, l) =>
      let c := lcRaw c ph cs v { l with poison := true, bundle := none }
      match mirFind c s line with
      | some u => some (lcRaw c (physOf c (partnerOf s)) cs u { lcRd c (physOf c (partnerOf s)) cs u with poison := true })
      | none => some c
    | none => if (heldOf c line).isSome then some c else poisonNew c s line
  /-- A line that the cache holds clean, or not at all, becomes a poisoned dirty line in both copies; where its set has no place for it,
  it waits in an internal tracker entry. -/
  poisonNew (c : Core) (s line : Nat) : Option Core :=
    let k := takeFree c
    let d := Config.lostLine k.1
    let cs := lcSet line
    let pl := lcPlace k.2 s line true
    match pl.1 with
    | .at_ w u =>
      let l : Loc := { use := u, line := line, poison := true, data := d, mirrored := true, age := pl.2.arr.age }
      let c := lcPut pl.2 (physOf c s) cs w l
      let c := { c with arr := { c.arr with age := c.arr.age + 1 } }
      let m := lcPickWrite c (physOf c (partnerOf s)) line
      let c := match m.1 with
        | some v => lcPut m.2 (physOf c (partnerOf s)) cs v { use := .mirror, line := line, poison := true, hway := w, data := d }
        | none => m.2
      some (if u = .transit then (bundleNew c s 1 true [line] none none false).2 else c)
    | _ =>
      match trkFree pl.2 s .internal with
      | none => none
      | some idx =>
        let c := trkAdd pl.2 s idx .internal (internalReq .backInval s idx line) .gather
        match trkGet c s idx with
        | some t => some (carry (trkPut c { t with passed := true, rtype := 1, dirtyIn := some (d, true) }))
        | none => some c

/-- Every location of the home copy that holds an entry. -/
def sfListed (c : Core) : List (Nat × Nat × Nat) :=
  c.arr.sfHome.map (fun p => (p.1 / 65536, p.1 / 16 % 4096, p.1 % 16))

/-- Every filter set that fails its check is recovered before a purge reads it (R153). -/
def purgeGuard (c : Core) : Core :=
  (((sfListed c).map (fun k => (k.1, k.2.1))).eraseDups.filter (fun k => !sfSetOk c k.1 k.2)).foldl
    (fun c k => (setGuard c k.1 (k.2 * 64)).2) c

/-- The snoop-filter purge of a C-port in reset goes on, and ends once every entry has been seen to (R72 steps 5 and 6). -/
def cPurge (c : Core) (p : Nat) : Core :=
  let x := cpGet c p
  if !x.purging || x.tags != [] || x.inq != [] then c
  else
  let c := purgeGuard (cNoWb c p)
  if c.arr.setRec != [] then c
  else
    let r := (sfListed c).foldl (fun y k => purgeWay p y k.1 k.2.1 k.2.2) { core := c, poisoned := (cpGet c p).poisoned }
    let c := cpMod r.core p (fun y => { y with poisoned := r.poisoned })
    if r.left then carry c
    else
    let n := r.poisoned.eraseDups.length
    let pg := 0x80000 + 0x1000 * p
    let tot := ctrv c (pg + 4) / 65536
    let c := ctrSet c (pg + 4) (min n 0xFFFF + 65536 * min (tot + n) 0xFFFF)
    let c := event c 0x203 [wd (epC p), wd n]
    carry (cOpen (cpMod c p (fun y => { y with purging := false, poisoned := [] })) p)

/-- Close a D-port: the boundary FIFO is discarded and the buffer drains (R74). -/
def dClose (c : Core) (d : Nat) : Core :=
  let x := dpGet c d
  if x.closed then c
  else
    let issued : Bool := match x.waiting with
      | some a => x.tags.any (fun t => t.counts && t.utag == a.utag && t.phase == .opened)
      | none => false
    let c := { c with trill := mdel c.trill (epD d) }
    dResolve (dpMod c d (fun y => { y with
      closed := true, credits := [0, 0, 0, 0, 0, 0], inCrd := [0, 0, 0, 0, 0, 0], owed := 0, outq := [], fifo := [], loads := []
      fencing := false
      waiting := if issued then y.waiting else none, older := if issued then y.older else 0 })) d

/-- A REQ flit of a D-port by its header: the port stops, the flit is discarded and its credit returned, or it is taken (R46, R63). A flit
without a credit finds no entry (assumption 20). -/
def dHead (c : Core) (d : Nat) (f : Flit) : Core :=
  let held := decide (credit (dpGet c d).inCrd 0 ≠ 0)
  let take := fun (c : Core) => dpMod c d (fun y => { y with inCrd := spend y.inCrd 0 })
  if (dpGet c d).closed || !portsUp c then c
  else match fate [0] f with
    | .stop => dClose (dpMod c d (fun y => { y with stopped := true })) d
    | .discard => if held then dBack (hdrErr (take c) (epD d) f) d else c
    | .good =>
      if !held then c
      else
        let y := ingressFlip (take c) (epD d) f
        dTake y.2 d y.1

/-- Act on an inbound flit of a C-port by its header: stop the port, discard the flit and return its credit, or, where the row takes such a
flit (`mine`), go on with it in the entry that its credit stands for (R46, R63). A flit without a credit finds no entry (assumption 20). -/
def cHead (c : Core) (p : Nat) (f : Flit) (mine : Bool) (k : Core → Flit → Core) : Core :=
  let held := decide (credit (cpGet c p).inCrd (fClass f) ≠ 0)
  let take := fun (c : Core) => cpMod c p (fun y => { y with inCrd := spend y.inCrd (fClass f) })
  if (cpGet c p).closed || !portsUp c then c
  else match fate [0, 2, 3, 4] f with
    | .stop => cClose (cpMod c p (fun y => { y with stopped := true })) p
    | .discard => if held then cBack (hdrErr (take c) (epC p) f) p (fClass f) else c
    | .good =>
      if !mine || !held then c
      else
        let y := ingressFlip (take c) (epC p) f
        k y.2 y.1

/-- The messages that a C-port sends in RSP and DAT (R51). -/
def cRspMsg : Msg → Bool
  | .snpResp | .fwdDone | .ack | .snpRespData | .cmpData => true
  | _ => false

/-- A RSP or DAT flit of a C-port with the message that a row names, or with an unassigned or forbidden opcode, which is discarded
(R62). -/
def cRsp (c : Core) (p : Nat) (f : Flit) (want : Msg) (k : Core → Flit → Core) : Core :=
  let bad := !((fMsg f).map cRspMsg).getD false
  cHead c p f ((fClass f == 2 || fClass f == 3) && (bad || fMsg f == some want)) (fun c f =>
    if bad then cBack (protoErr c (epC p) 1 (fLine f)) p (fClass f) else k (statNote c (epC p) f) f)

/-- The answer or forwarded data in a DAT flit of a C-port goes on (R52, R91, R298). -/
def cData (c : Core) (p : Nat) (f : Flit) : Core :=
  match fMsg f with
  | some .snpRespData =>
    let bad := poisonIn .snpRespData f
    cAnswer c p (cRid p f) (fLine f) (fTag f) (.data (fGst f) (fDirty f) f.pay bad) (some (f.pay, bad))
  | some .cmpData =>
    forward (countInj c (epC p)) (epC p) (fRid f) (fTag f) (fGst f) ((codeStat (fStat f)).getD .ok) f.pay (poisonIn .cmpData f) (fLine f)
  | _ => c

/-- A DAT flit of a C-port goes on and frees its entry; snoop data that the reissue store has no room for waits there (R66, R412). -/
def cDat (c : Core) (p : Nat) (f : Flit) : Core :=
  let x := cpGet c p
  if x.inq.any (fun g => fClass g.1 == 3) || (fMsg f == some .snpRespData && !storeRoom x 3) then
    cpMod c p (fun y => { y with inq := y.inq ++ [(f, now c)] })
  else cBack (cData c p f) p 3

/-- The next flit of an inbound boundary FIFO that can go on: the oldest of its class (R50, R66). -/
def cNext (x : CPort) : Option (Flit × Nat) :=
  [4, 3, 0].findSome? (fun k => (x.inq.find? (fun g => fClass g.1 == k)).filter (fun g =>
    if k == 3 then fMsg g.1 != some .snpRespData || storeRoom x 3 else !cFull x g.1))

/-- Let the flits that wait in a C-port's inbound boundary FIFOs go on, at most `fuel` of them (R66, R70, R72 step 2). -/
def cPumpN : Nat → Core → Nat → Core
  | 0, c, _ => c
  | n + 1, c, p =>
    match cNext (cpGet c p) with
    | none => c
    | some g =>
      let k := fClass g.1
      let c := cpMod c p (fun y => { y with inq := y.inq.erase g })
      cPumpN n (cBack (if k = 3 then cData c p g.1 else cIssue c p g.1 g.2) p k) p

/-- Every waiting flit of a C-port that can goes on. -/
def cPump (c : Core) (p : Nat) : Core := cPumpN (cpGet c p).inq.length c p

end Sys2Proof.Machine
end

