-- ==== Sys2Proof/Machine/Requests.lean ====
section
/-! DEFINITION. The commands by which requests, write-backs, answers and completions enter, cross and leave the block: one meaning per
row over the shared operations of the ports and the home (R51, R59, R77 to R126, R197 to R244, R335 to R337, R412). -/

namespace Sys2Proof.Machine

/-- Commands are about requests of these kinds at their home. -/
def atHome (s : State) (ops : List Op) (r : Ref) : Host.Outcome State Fault Refusal :=
  onCore s (fun c => homeReq ops c r.src r.tag)

/-! ### Ingress. -/

/-- Change the data side of the machine. -/
def withCore (s : State) (f : Core → Core) : State := { s with core := f s.core }

/-- Change the control path. -/
def withCtl (s : State) (f : Ctl → Ctl) : State := { s with ctl := f s.ctl }

/-- Every lock that an owner holds is released and marked BROKEN (R372). -/
def dropLocks (s : State) (owner : Nat) : State :=
  withCtl s (fun t => { t with lig := t.lig.map (fun x =>
    if x.2.owner = owner then (x.1, { x.2 with owner := 0, broken := true, dead := owner }) else x) })

/-- REQ_INGRESS (R59): a REQ-class flit of a C- or D-port, or the oldest REQ message of a gateway. A D-port that stops releases its locks
(R46, R372). -/
def execReqIngress (x : ReqSrc) (s : State) : Host.Outcome State Fault Refusal :=
  onState s (fun s => match x with
    | .cport p f => withCore s (fun c => cHead c p.val f (fClass f == 0) (fun c f => cTake c p.val f))
    | .dport d f =>
      let stops := !(dpGet s.core d.val).closed && portsUp s.core && fate [0] f == .stop
      let s := withCore s (fun c => dHead c d.val f)
      if stops then dropLocks s (2 + d.val) else s
    | .gw k => withCore s (fun c => if portsUp c then gwDeliver c k.val (fun m => msgCls m == 0) else c))

/-- STORE_ENTERS_BUFFER (R211). -/
def execStoreEntersBuffer (d : Fin 8) (s : State) : Host.Outcome State Fault Refusal := onCore s (fun c => storeIn c d.val)

/-- STORE_DRAIN (R213). -/
def execStoreDrain (d : Fin 8) (s : State) : Host.Outcome State Fault Refusal := onCore s (fun c => storeOut c d.val)

/-- STORE_CMP (R214). -/
def execStoreCmp (d : Fin 8) (tag : Nat) (s : State) : Host.Outcome State Fault Refusal := onCore s (fun c => storeDone c d.val tag)

/-- FENCE (R225). -/
def execFence (d : Fin 8) (s : State) : Host.Outcome State Fault Refusal := onCore s (fun c => fenceRun c d.val)

/-- FENCE_P (R229). -/
def execFenceP (d : Fin 8) (s : State) : Host.Outcome State Fault Refusal := onCore s (fun c => fencePRun c d.val)

/-! ### Requests at their home (R102 to R113). -/

/-- RD_SHARED (R102). -/
def execRdShared (r : Ref) (s : State) : Host.Outcome State Fault Refusal := atHome s [.rdShared] r
/-- RD_UNIQUE (R102). -/
def execRdUnique (r : Ref) (s : State) : Host.Outcome State Fault Refusal := atHome s [.rdUnique] r
/-- RD_ONCE (R102). -/
def execRdOnce (r : Ref) (s : State) : Host.Outcome State Fault Refusal := atHome s [.rdOnce] r
/-- CLEAN_UNIQUE (R104). -/
def execCleanUnique (r : Ref) (s : State) : Host.Outcome State Fault Refusal := atHome s [.cleanUnique] r
/-- WR_FULL (R102). -/
def execWrFull (r : Ref) (s : State) : Host.Outcome State Fault Refusal := atHome s [.wrFull] r
/-- WR_PARTIAL (R102). -/
def execWrPartial (r : Ref) (s : State) : Host.Outcome State Fault Refusal := atHome s [.wrPartial] r
/-- PERSIST (R107). -/
def execPersist (r : Ref) (s : State) : Host.Outcome State Fault Refusal := atHome s [.persist] r
/-- LOAD (R108). -/
def execLoad (r : Ref) (s : State) : Host.Outcome State Fault Refusal := atHome s [.load] r
/-- DRAINED_STORE (R108). -/
def execDrainedStore (r : Ref) (s : State) : Host.Outcome State Fault Refusal := atHome s [.store] r
/-- LOAD_RES (R109, R221). -/
def execLoadRes (r : Ref) (s : State) : Host.Outcome State Fault Refusal := atHome s [.loadRes] r
/-- STORE_COND (R110). -/
def execStoreCond (r : Ref) (s : State) : Host.Outcome State Fault Refusal := atHome s [.storeCond] r
/-- TRILL_PREFETCH (R112). -/
def execTrillPrefetch (r : Ref) (s : State) : Host.Outcome State Fault Refusal := atHome s [.prefetch] r
/-- PUG_LINE_ACTION (R197). -/
def execPugLineAction (r : Ref) (s : State) : Host.Outcome State Fault Refusal := atHome s [.pug] r

/-- A WB-class message of a kind enters the core from a port or gateway, or reaches its home (R105, R106, R118, R119). -/
def wbMove (c : Core) (x : WbSrc) (want : Msg) (op : Op) : Core :=
  match x with
  | .cport p f =>
    let wb := fMsg f == some .wbDirty || fMsg f == some .evictClean
    cHead c p.val f (fClass f == 4 && (!wb || fMsg f == some want)) (fun c f =>
      if wb then cTake c p.val f else cBack (protoErr c (epC p.val) 1 (fLine f)) p.val 4)
  | .gw k => gwDeliver c k.val (fun m => m == want)
  | .moving r =>
    match c.fab.reqs.find? (fun q => q.src == r.src && q.tag == r.tag && q.op == op) with
    | none => c
    | some q =>
      if !firstOf c q || destHeld c q.line then c
      else
        let p := poolTurn c (sliceOf c q.line) .writeback (waitMsg q)
        match (if p.1 then wbArrive (reqTaken p.2 q) q else none) with
        | some c' => carry c'
        | none => p.2

/-- WB_DIRTY (R105). -/
def execWbDirty (x : WbSrc) (s : State) : Host.Outcome State Fault Refusal := onCore s (fun c => wbMove c x .wbDirty .wbDirty)

/-- EVICT_CLEAN (R106). -/
def execEvictClean (x : WbSrc) (s : State) : Host.Outcome State Fault Refusal := onCore s (fun c => wbMove c x .evictClean .evictClean)

/-! ### Pug (R198, R199). -/

/-- The pattern of a FILL, repeated over the line (PUG_PAT). -/
def pugLine (pat : BitVec 64) : Line := BitVec.ofNat 512 ((List.range 8).foldl (fun a i => a + pat.toNat * 2 ^ (64 * i)) 0)

/-- A Pug job goes on to its next line: the line is skipped or done at once (R198), or its action leaves for the home (R199). -/
def pugIssue (c : Core) (j : Nat) : Core :=
  let p := mget c.pug j {}
  let line := c.dom.inst * 2 ^ 42 + p.next
  let ty := lineType c line
  let s := sliceOf c line
  let run := c.st.cur == .ready || c.st.cur == .degraded
  let held := (c.arr.trk.filter (fun t => t.req.op == .pug && t.req.shint == j && t.slice == s)).length +
    (c.fab.reqs.filter (fun r => r.op == .pug && r.shint == j && sliceOf c r.line == s)).length
  if !p.busy || p.issued || p.aborting || !run then c
  else
    let p' := { p with next := p.next + 1, issued := decide (p.limit ≤ p.next) }
    let skip := fun (c : Core) => pugEnd { c with pug := mput c.pug j p' } j
    if ty = 0 ∨ (above16T line ∧ ty ≠ 2) then skip (ctrSat c (pugBase j + 0x29) 16 1)
    else if ty = 3 ∧ p.typ ≠ 4 then skip (ctrAdd c (pugBase j + 0x20) 48 1)
    else if 8 ≤ held ∨ (poolFree c s .general < 48 ∧ now c < p.lastIssue + 2 ^ 16) then c
    else
      let r : Req := {
        op := .pug, src := epPug, tag := p.serial * 4 + j, rid := 76, line := line, be := beAll
        data := if p.typ = 4 then pugLine p.pat else 0, shint := j, aux := p.typ }
      let p'' := { p' with inFlight := p.inFlight + 1, lastIssue := now c, serial := p.serial + 1 }
      countInj { c with pug := mput c.pug j p'', fab := { c.fab with reqs := c.fab.reqs ++ [r] } } epPug

/-- PUG_ISSUE (R199). -/
def execPugIssue (j : Fin 4) (s : State) : Host.Outcome State Fault Refusal := onCore s (fun c => pugIssue c j.val)

/-! ### Answers. -/

/-- An answer of one opcode from a gateway's remote proxy reaches its home (R86, R90). -/
def gwAnswered (c : Core) (k : Nat) (want : Msg) : Core :=
  match rxFind c k (fun m => m.msg == want) with
  | none => c
  | some m =>
    let f := rxFlit m
    let a : Ans := match want with
      | .snpRespData => .data f.gst f.dirty f.data f.poison
      | .fwdDone => .done f.gst
      | _ => .resp f.gst
    let c := countInj (rxDrop c k m) (epG k)
    if snoopOpen c f.line f.tag (64 + m.src) then homeAnswer c f.line f.tag (64 + m.src) a false
    else event c 0x202 [wd (epG k), 8, loW (f.line * 64), hiW (f.line * 64)]

/-- SNP_RESP (R89). -/
def execSnpResp (x : RspSrc) (s : State) : Host.Outcome State Fault Refusal :=
  onCore s (fun c => match x with
    | .cport p f => cRsp c p.val f .snpResp (fun c f =>
        cBack (cAnswer c p.val (cRid p.val f) (fLine f) (fTag f) (.resp (fGst f)) none) p.val 2)
    | .gw k => gwAnswered c k.val .snpResp)

/-- SNP_RESP_DATA (R91). -/
def execSnpRespData (x : RspSrc) (s : State) : Host.Outcome State Fault Refusal :=
  onCore s (fun c => match x with
    | .cport p f => cRsp c p.val f .snpRespData (fun c f => cDat c p.val f)
    | .gw k => gwAnswered c k.val .snpRespData)

/-- FWD_DONE (R89). -/
def execFwdDone (x : RspSrc) (s : State) : Host.Outcome State Fault Refusal :=
  onCore s (fun c => match x with
    | .cport p f => cRsp c p.val f .fwdDone (fun c f =>
        cBack (cAnswer c p.val (cRid p.val f) (fLine f) (fTag f) (.done (fGst f)) none) p.val 2)
    | .gw k => gwAnswered c k.val .fwdDone)

/-- An ACK at a C-port names a completion that awaits one, or is discarded (R57, R488). -/
def cAck (c : Core) (p : Nat) (f : Flit) : Core :=
  match (cpGet c p).tags.find? (fun t => t.phase == .ackWait && t.req.rid == cRid p f && t.utag == fTag f) with
  | none => protoErr c (epC p) 8 (fLine f)
  | some t =>
    let c := cpMod c p (fun y => { y with tags := y.tags.erase t })
    cPump (ackOut (countInj c (epC p)) t.req.line t.req.src t.req.tag) p

/-- ACK (R81). -/
def execAck (x : RspSrc) (s : State) : Host.Outcome State Fault Refusal :=
  onCore s (fun c => match x with
    | .cport p f => cRsp c p.val f .ack (fun c f => cBack (cAck c p.val f) p.val 2)
    | .gw k =>
      match rxFind c k.val (fun m => m.msg == .ack) with
      | none => c
      | some m =>
        let f := rxFlit m
        let c := rxDrop c k.val m
        let open_ := match trkOfReq c (epG k.val) (f.tag + 4096 * m.src) with
          | some t => t.cmpSent || t.forwarded
          | none => false
        if open_ then homeAck c (epG k.val) (f.tag + 4096 * m.src)
        else event c 0x202 [wd (epG k.val), 8, loW (f.line * 64), hiW (f.line * 64)])

/-- FORWARDED_CMP_DATA (R52, R298). -/
def execForwardedCmpData (x : RspSrc) (s : State) : Host.Outcome State Fault Refusal :=
  onCore s (fun c => match x with
    | .cport p f => cRsp c p.val f .cmpData (fun c f => cDat c p.val f)
    | .gw k =>
      match rxFind c k.val (fun m => m.msg == .cmpData && decide ((rxFlit m).rid < 64)) with
      | none => remoteDone c k.val (fun m => m.msg == .cmpData)
      | some m =>
        let f := rxFlit m
        forward (rxDrop c k.val m) (epG k.val) f.rid f.tag f.gst f.stat f.data f.poison f.line)

/-! ### Completions, credits, records. -/

/-- COMPLETION_EGRESS (R337, R400). -/
def execCompletionEgress (r : Ejected) (s : State) : Host.Outcome State Fault Refusal := onCore s (fun c =>
    let c := egress (if r.refails then cmpRefails c r.src r.tag else c) r.toRef
    if 66 ≤ r.src ∧ r.src < 82 then cPump c (r.src - 66) else c)

/-- OUTBOUND_CREDIT (R63): a credit returned to a port drives the next flit of its class; a closed port takes none. The S-ports' link
credits come in frames (R301). -/
def execOutboundCredit (p : PortId) (cls : Fin 6) (s : State) : Host.Outcome State Fault Refusal :=
  onCore s (fun c => match p with
    | .c q =>
      let x := cpGet c q.val
      if x.closed || !portsUp c then c
      else
        let r := drainQ x.outq (earn x.credits cls.val 1) [] []
        { c with cport := mput c.cport q.val { x with outq := r.2.1, credits := r.2.2 }
                 wire := c.wire ++ r.1.map (fun g => .flit (epC q.val) g) }
    | .d q =>
      let x := dpGet c q.val
      if x.closed || !portsUp c then c
      else
        let r := drainQ x.outq (earn x.credits cls.val 1) [] []
        { c with dport := mput c.dport q.val { x with outq := r.2.1, credits := r.2.2 }
                 wire := c.wire ++ r.1.map (fun g => .flit (epD q.val) g) }
    | .b q => if (bpGet c q.val).closed then c else bpMod c q.val (fun x => { x with credits := earn x.credits cls.val 1 })
    | .s _ => c)

/-- HOLD_NOTICE (R412). -/
def execHoldNotice (r : Ref) (s : State) : Host.Outcome State Fault Refusal :=
  onCore s (fun c =>
    if !c.fab.holdN.contains r then c
    else
      let c := { c with fab := { c.fab with holdN := c.fab.holdN.erase r } }
      if 66 ≤ r.src ∧ r.src < 82 then
        cPump (cpMod c (r.src - 66) (fun y => { y with
          tags := y.tags.map (fun t => if t.tag = r.tag then { t with held := false } else t)
          recs := y.recs.filter (fun d => recRef d.agent d.phys d.trk != r) })) (r.src - 66)
      else c)

/-- ABANDON_NOTICE (R244, R245). -/
def execAbandonNotice (d : Fin 8) (tag : Nat) (s : State) : Host.Outcome State Fault Refusal :=
  onCore s (fun c =>
    if !c.fab.abandon.contains (d.val, tag) then c
    else
      let c := { c with fab := { c.fab with abandon := c.fab.abandon.erase (d.val, tag) } }
      dpMod c d.val (fun y => { y with psb := y.psb.map (fun b =>
        if b.tag = tag then { b with issued := false } else b) }))

/-- INGRESS_TIMEOUT (R337). -/
def execIngressTimeout (r : Ref) (s : State) : Host.Outcome State Fault Refusal := onCore s (fun c => ingressTmo c r)

/-- A snoop to a local agent, or an awaited write-back, times out (R125, R336). -/
def snoopTmo (c : Core) (slice trk agent : Nat) : Core :=
  match trkGet c slice trk with
  | none => c
  | some t =>
    let line := t.req.line
    let p := portOfAgent agent
    if t.snoops.any (fun x => x.who == agent && decide (x.t0 + snpTmo c ≤ now c)) then
      let c := cpMod c p (fun y => { y with snoops := y.snoops.filter (fun x => !(x.agent == agent && x.line == line && x.trk == trk)) })
      homeGone (protoErr (ctrSat c 0x6000D 8 1) (epC p) 6 line) line trk agent
    else if t.awaitWb.any (fun x => x.1 == agent && decide (x.2 + snpTmo c ≤ now c)) then
      homeNoWb (protoErr (ctrSat c 0x6000D 8 1) (epC p) 5 line) line trk agent
    else c

/-- SNOOP_TIMEOUT (R125, R336). -/
def execSnoopTimeout (slice : Fin 32) (trk : Nat) (agent : Fin 64) (s : State) : Host.Outcome State Fault Refusal :=
  onCore s (fun c => snoopTmo c slice.val trk agent.val)

/-- PORT_PURGE_COMPLETE (R72). -/
def execPortPurgeComplete (p : Fin 16) (s : State) : Host.Outcome State Fault Refusal := onCore s (fun c => cPurge c p.val)

end Sys2Proof.Machine
end

