-- ==== Sys2Proof/Machine/Start.lean ====
section
/-! DEFINITION. The persistence record and the way to READY: what a record holds, starting and ending its write, waiting for the back-ends
and opening the ports (R255 to R260, R384, R445, R485). -/

namespace Sys2Proof.Machine

/-- Write bytes into packet RAM; a flip armed for category 8 strikes the first of them (R364). -/
def ramWrite (s : State) (a : Nat) (bs : List Byte) : State :=
  let bad := s.pramBad.filter (fun x => x < a || a + bs.length ≤ x)
  let hit := flipArmed s.core 8 && bs != [] && decide (a < pramSize)
  { s with pram := memPutBytes s.pram a bs
           pramBad := if hit then bad ++ [a] else bad
           core := if hit then flipFire s.core else s.core }

/-- Some of n bytes of packet RAM fail parity. -/
def ramBad (s : State) (a n : Nat) : Bool := s.pramBad.any (fun x => decide (a ≤ x) && decide (x < a + n))

/-- An error of packet RAM is found (R348, R398). -/
def ramError (s : State) : State := withCore s (fun c => arrayError c { cat := 8, kind := 3, unit := 112 })

/-- An image has been read into a processor's memory; a flip armed for category 9 strikes it (R364). -/
def memLoad (s : State) (image : Bool) : ProcMem × State :=
  let hit := flipArmed s.core 9
  ({ image := some image, bad := hit }, if hit then { s with core := flipFire s.core } else s)

/-- Parity of processor p's memory is found wrong (R398): 3 is LP. -/
def memError (s : State) (p : Nat) : State :=
  { s with core := arrayError s.core { cat := 9, kind := 0, unit := if p = 3 then 116 else 113 + p } }

/-- A processor faults: it stops, its memory is cleared, its locks are released and its reservations end, and its image is read again (R18,
R223, R372). -/
def procDown (s : State) (p : Nat) : State :=
  if !s.ctl.up || s.ctl.down.contains p then s
  else
    let s := if (mget s.ctl.mem p {}).bad then memError s p else s
    let s := { s with ctl := { s.ctl with down := s.ctl.down ++ [p], mem := mdel s.ctl.mem p, tries := mdel s.ctl.tries p } }
    let s := dropLocks s (10 + p)
    let c := (List.range 32).foldl (fun c l => monDrop c l (72 + p)) s.core
    { s with core := alarmEvent c 0 0x801 [wd p] }

/-- LP faults and restarts from its active image, inside Saggar; its locks are released, and the next readout says so (R372, R453). -/
def lpRestart (s : State) : State :=
  if !s.pwr.vddsUp || !s.sag.lpRun then s
  else
    let s := if s.sag.lpMem.bad then memError s 3 else s
    let m := memLoad (dropLocks s 13) s.sag.lpSlot
    { m.2 with sag := { m.2.sag with lpMem := m.1, lpRestarted := true } }

/-- The serial number as NDR_UID shows it (R354). -/
def uidShown : BitVec 64 := if Config.uidCheck then Config.uid else BitVec.allOnes 64

/-- The regions whose type satisfies a test, as a bit map. -/
def rgnMap (c : Core) (p : RgnWords → Bool) : BitVec 16 :=
  BitVec.ofNat 16 (ofBits ((List.range 16).filter (fun r => p (rgnCur c r))))

/-- PERS_MAP of R255: NORMAL or DEVICE. -/
def persMap (c : Core) : BitVec 16 := rgnMap c (fun w => rgnType w == 1 || rgnType w == 2)

/-- HOLDUP_MAP of R255: NORMAL in HOLDUP mode. -/
def holdupMap (c : Core) : BitVec 16 := rgnMap c (fun w => rgnType w == 1 && !rgnStrict w)

/-- BASE and LIMIT of every entry, as the record keeps them (R255). -/
def rgnCopies (c : Core) : List (Word × Word) := (List.range 16).map (fun r => ((rgnCur c r).base, (rgnCur c r).limit))

/-- An OPEN record with the given SEQ, GEN, CAUSE and region table (R255). -/
def openRecord (c : Core) (seq gen cause : Nat) : Record :=
  { close := false, seq := seq, gen := gen, uid := uidShown, persMap := persMap c, holdupMap := holdupMap c, lostMap := 0
    cause := cause, written := 0, incomplete := 0, pinnedLost := 0, spanLost := 0, ticks := 0, regions := rgnCopies c }

/-- The bytes of a record but its CRC (R255). -/
def recordBody (r : Record) : List Byte :=
  leBytes 0x5250444E 4 ++ leBytes (if r.close then 2 else 1) 2 ++ leBytes 1 2 ++ leBytes r.seq 4 ++ leBytes r.gen 4
  ++ leBytes r.uid.toNat 8 ++ leBytes r.persMap.toNat 2 ++ leBytes r.holdupMap.toNat 2 ++ leBytes r.lostMap.toNat 2
  ++ leBytes r.cause 1 ++ leBytes 0 1 ++ leBytes r.written 4 ++ leBytes r.incomplete 4 ++ leBytes r.pinnedLost 2
  ++ leBytes r.spanLost 2 ++ leBytes r.ticks 4 ++ leBytes 0x00020100 4 ++ leBytes 0 12
  ++ r.regions.flatMap (fun x => leBytes x.1.toNat 4 ++ leBytes x.2.toNat 4) ++ leBytes 0 60

/-- The 256 bytes of a record (R255). -/
def recordBytes (r : Record) : List Byte := recordBody r ++ leBytes (crc32 (leVal (recordBody r)) (8 * 252)) 4

/-- A record write begins (R256). -/
def recStart (s : State) (why : RecWhy) (r : Record) : State :=
  { s with pers := { s.pers with write := some (why, r), attempt := true, failed := false } }

/-- SEQ of the next record, modulo 2^32. -/
def nextSeq (p : Pers) : Nat := (p.seq + 1) % 2 ^ 32

/-- The region table as it will stand once entry r is committed. -/
def tableWith (c : Core) (r : Nat) : Core :=
  let e := mget c.rgn r {}
  { c with rgn := mput c.rgn r { e with cur := e.stage } }

/-- A commit takes effect: reservations on its granules end, KEY_EMPTY is told afresh, the staging copy follows (R223, R276, R355,
R356). -/
def commitNow (c : Core) (r : Nat) : Core :=
  let e := mget c.rgn r {}
  let hit := fun (line : Nat) => rgnCovers e.cur line || rgnCovers e.stage line
  let base := c.dom.inst * 2 ^ 42
  { c with
    rgn := mput c.rgn r { e with cur := e.stage, pend := false, keyTold := false }
    arr := { c.arr with mon := c.arr.mon.filter (fun p =>
      !(hit (base + p.2.granule * 2 % 2 ^ 42) || hit (base + (p.2.granule * 2 + 1) % 2 ^ 42))) } }

/-- The next region commit that waits starts its record write (R257). -/
def nextCommit (s : State) : State :=
  if s.pers.write.isSome then s
  else match s.pers.commits with
    | [] => s
    | r :: rest =>
      recStart { s with pers := { s.pers with commits := rest } } (.region r)
        (openRecord (tableWith s.core r) (nextSeq s.pers) s.pers.gen 3)

/-- A logical slice is served by its partner's physical slice (R30, R384). -/
def anyOneCopy (c : Core) : Bool := (List.range 32).any (oneCopy c)

/-- The C-, D- and S-ports whose resets are deasserted open (R72, R258). -/
def openPorts (c : Core) : Core :=
  let c := (List.range 16).foldl (fun c p => if (cpGet c p).closed then cOpen c p else cGrant c p) c
  let c := (List.range 4).foldl (fun c n =>
    let x := spGet c n
    if x.linkUp && !x.resetIn && !x.stopped && !x.gotTrain then announce c n else c) c
  (List.range 8).foldl (fun c d =>
    dGrant (dpMod c d (fun y => if y.closed && !y.resetIn && !y.stopped then { y with closed := false } else y)) d) c

/-- Ticks of the start, in units of 256 ticks, since its origin (R486). -/
def startTicks (s : State) : Word := wd (min ((now s.core - s.pwr.origin) / 256) (2 ^ 32 - 1))

/-- Nderam enters READY: the ports open; a slice that its partner serves leads on to DEGRADED (R258, R384, R483). -/
def enterReady (s : State) : State :=
  let c := openPorts (setState s.core .ready)
  let c := if anyOneCopy c then setState c .degraded else c
  { s with core := c, pwr := { s.pwr with tReady := startTicks s } }

/-- The back-ends waited for: those whose B-port reset is deasserted (R258). -/
def waitedFor (c : Core) : List Nat := (List.range 16).filter (fun b => !(bpGet c b).resetIn)

/-- In WAIT_BACKEND, once every back-end waited for is READY: the OPEN record of R256, or READY at once (R258). -/
def startCheck (s : State) : State :=
  let c := s.core
  if c.st.cur ≠ .waitBackend ∨ s.pers.write.isSome = true ∨ !(waitedFor c).all (fun b => (bpGet c b).ready) then s
  else if s.pers.genOpen then nextCommit (enterReady s)
  else recStart s .enterReady (openRecord c (nextSeq s.pers) ((s.pers.gen + 1) % 2 ^ 32) (if s.pwr.warm then 2 else 1))

/-- A copy lies in slot SEQ mod 2 (R256, R445). -/
def slotPut (p : Pers) (seq : Nat) (x : RecSlot) : Pers :=
  if seq % 2 = 0 then { p with slot0 := x } else { p with slot1 := x }

/-- The record that two slots give at start (R445), none where neither is valid. -/
def slotPick (a b : RecSlot) : Option Record :=
  match a, b with
  | .valid x, .valid y =>
    let d := (x.seq + 2 ^ 32 - y.seq) % 2 ^ 32
    if d = 0 ∨ d = 2 ^ 31 then (if x.seq % 2 = 0 then some x else some y)
    else if d < 2 ^ 31 then some x else some y
  | .valid x, _ => some x
  | _, .valid y => some y
  | _, _ => none

/-- An attempt to write an OPEN record ends (R256, R257). -/
def openEnds (s : State) (ok : Bool) : State :=
  match s.pers.write with
  | some (why, r) =>
    if !s.pers.attempt || why == .close then s
    else if ok then
      let p := slotPut s.pers r.seq (.valid r)
      let p := { p with seq := r.seq, gen := r.gen, genOpen := true, write := none, attempt := false, failed := false }
      let s := { s with pers := p }
      match why with
      | .region k => nextCommit (withCore s (fun c => commitNow c k))
      | _ => nextCommit (enterReady s)
    else
      let s := if s.pers.failed then s else withCore s (fun c => event c 0x603 [1, wd r.seq])
      { s with pers := { slotPut s.pers r.seq .invalid with failed := true, attempt := false } }
  | none => s

/-- OPEN_RECORD_WRITTEN (R256). -/
def execOpenRecordWritten (ok : Bool) (s : State) : Host.Outcome State Fault Refusal := onState s (fun s => openEnds s ok)

/-- RECORD_RETRY (R256): a failed record write is repeated. -/
def execRecordRetry (s : State) : Host.Outcome State Fault Refusal :=
  onState s (fun s => if s.pers.write.isSome && s.pers.failed && !s.pers.attempt then
    { s with pers := { s.pers with attempt := true } } else s)

end Sys2Proof.Machine
end

