-- ==== Sys2Proof/Machine/Backend.lean ====
section
/-! DEFINITION. The back-end ports: answers of the back-end, EXHAUSTED and pinned lines, key slots, health, resets of a B-port, the
transfer arbiter and the bank arbiters (R54, R75, R181, R184, R185, R262 to R287). -/

namespace Sys2Proof.Machine

/-- Port page of B-port b (R289). -/
def bpPage (b : Nat) : Nat := 0x50000 + 0x100 * b

/-- The tweak of a local line (R275). -/
def tweak (line : Nat) : Nat := localOf line * 64

/-- Payload of a BE_WRITE under a slot's content (R275, R276). -/
def encryptBy (k : KeySlot) (line : Nat) (d : Line) : Line :=
  match k with
  | .key x => Config.xtsEncrypt x (tweak line) d
  | _ => d

/-- Plaintext of a BE_DATA under a slot's content. -/
def decryptBy (k : KeySlot) (line : Nat) (d : Line) : Line :=
  match k with
  | .key x => Config.xtsDecrypt x (tweak line) d
  | _ => d

/-- Content of a key slot. -/
def slotKey (c : Core) (k : Nat) : KeySlot := mget c.keys k .empty

/-! ### Pinned lines and key slots (R184, R276, R277, R279). -/

/-- Pinned lines that satisfy a test. -/
def pinnedLines (c : Core) (p : Nat → Bool) : List Nat :=
  ((c.arr.lc.filter (fun x => x.2.use.isDirty && x.2.pin && p x.2.line)).map (fun x => x.2.line)) ++
    ((c.arr.hold.filter (fun h => h.pinned && p h.line)).map (fun h => h.line))

/-- Clear PIN on pinned lines and place each in a bundle at once (R279). -/
def unpin (c : Core) (p : Nat → Bool) : Core :=
  let l := pinnedLines c p
  let c := l.foldl (fun c x => setPin c x false) c
  carry ((List.range 33).foldl (fun c s =>
    let m := (bundleable c s).filter (fun x => l.contains x)
    bundleMany m.length c s 1 m none false) c)

/-- Something outstanding uses a slot (R277). -/
def slotInUse (c : Core) (k : Nat) : Bool :=
  c.reads.any (fun r => r.st == .out && r.key == k) ||
  c.bundles.any (fun b => (b.st == .started || b.st == .sent) && b.key == k) ||
  c.bport.any (fun p => p.2.deadKeys.any (fun x => x.2 == k && p.2.deadTags.contains x.1))

/-- A TAG goes out of use until its late answer comes; its message counts as outstanding until then (R268, R271). -/
def deadTag (c : Core) (b tag key : Nat) : Core :=
  bpMod c b (fun y => { y with deadTags := y.deadTags ++ [tag], deadKeys := y.deadKeys.filter (fun x => x.1 != tag) ++ [(tag, key)] })

/-- New contents of slots that nothing outstanding uses apply: KEY_EMPTY is told afresh, and lines pinned for want of a key are
released (R276, R277). -/
def keyApply (c : Core) : Core :=
  c.keyNext.foldl (fun c x =>
    if slotInUse c x.1 then c
    else
      let told := c.rgn.map (fun y => if rgnKey y.2.cur = x.1 then (y.1, { y.2 with keyTold := false }) else y)
      let c := { c with keys := mput c.keys x.1 x.2, keyNext := mdel c.keyNext x.1, rgn := told }
      if x.2 = .empty then c
      else unpin c (fun line =>
        (match rgnIndex c line with | some r => rgnKey (rgnCur c r) == x.1 | none => false) && !wrefOf c line)) c

/-! ### Bundles and reads that end (R264, R266, R271). -/

/-- Change BE_READ sn. -/
def readMod (c : Core) (sn : Nat) (f : Read → Read) : Core :=
  { c with reads := c.reads.map (fun r => if r.sn = sn then f r else r) }

/-- Drop a BE_READ, with its message if that still waits. -/
def readDel (c : Core) (r : Read) : Core :=
  bpMod { c with reads := c.reads.filter (fun x => x.sn != r.sn) } r.port
    (fun x => { x with queue := x.queue.filter (fun m => !m.isRead || m.id != r.sn) })

/-- The tracker that waits for a read. -/
def readTrk (c : Core) (r : Read) : Option Trk :=
  match trkGet c r.slice r.trk with
  | some t => if t.fill = .out r.sn then some t else none
  | none => none

/-- A read ends without data: its tracker completes with an error unless an answer has brought the data (R93, R115, R264). -/
def readFail (c : Core) (r : Read) (st : Stat) : Core :=
  let c := readDel c r
  match readTrk c r with
  | none => carry c
  | some t =>
    if t.data.isSome then carry (trkPut c { t with fill := .none })
    else
      carry (trkPut c (entUndo c { t with fill := .none, stat := st }))

/-- A read ends with data: the line is written Clean into the way that was kept for it, unless that way has left the cache meanwhile; data that an
answer has brought is used instead (R91 to R93, R176, R187, R191, R204). -/
def readOk (c : Core) (r : Read) (d : Line) (p : Bool) : Core :=
  let c := readDel c r
  match readTrk c r with
  | none => carry c
  | some t =>
    let kept := t.data.isSome
    let d := t.data.getD d
    let p := if kept then t.poison else p
    let c := trkPut c { t with fill := .none, data := some d, poison := p }
    let c := if t.refetch && !kept then event c 0x302 [2, wd t.slice] else c
    let cs := lcSet r.line
    let other := (lcFind c r.slice r.line).isSome || (kept && ((heldOf c r.line).isSome || t.dirtyIn.isSome || isWhole t))
    let c := match r.way with
      | some w =>
        if lcOffMode c || !lcUsable c r.phys cs w || c.arr.leaving.contains (r.phys, cs, w) || other then c
        else
          let c := lcPut c r.phys cs w { use := .clean, line := r.line, poison := p, pf := r.pref, data := d }
          if r.pref then lcUntouch c r.phys cs w else lcTouch c r.phys cs w
      | none => c
    carry c

/-- Trackers whose completion waits on a bundle go on (R98, R107, R180, R185). -/
def waitersDone (c : Core) (id : Nat) (st : Stat) : Core :=
  { c with arr := { c.arr with trk := c.arr.trk.map (fun t =>
      if t.bundle = some id then
        if t.through then { t with bundle := none, through := false, dirtyIn := none }
        else { t with bundle := none, durDone := true, stat := if st.isErr then st else t.stat }
      else t) } }

/-- Pug lines that wait for a bundle are done (R197, R198). -/
def pugWaits (c : Core) (id : Nat) (err : Bool) : Core :=
  [0, 1, 2, 3].foldl (fun c j =>
    let p := mget c.pug j {}
    let n := (p.waits.filter (fun w => w.2 == id)).length
    let c := { c with pug := mput c.pug j { p with waits := p.waits.filter (fun w => w.2 != id) } }
    (List.range n).foldl (fun c _ => pugDone (if err then pugErr c j else c) j) c) c

/-- The bundle still carries a line's present value: its location or held copy names it, or a write-through holds the data (R185). -/
def stillIn (c : Core) (x : Bundle) (line : Nat) : Bool :=
  lineBundle c line == some x.id ||
  c.arr.trk.any (fun t => t.through && t.bundle == some x.id && t.req.line == line)

/-- An attempt is over without making its lines durable: what the bundle still carries waits again, under a new TAG (R266, R271,
R272, R75). Lines with a newer value leave it; a Pug action on one of them follows the newer value. -/
def rebundle (c : Core) (x : Bundle) : Core :=
  let c := bqDrop c x.port x.id
  let c := bpMod c x.port (fun y => { y with cur := if y.cur = some x.id then none else y.cur })
  let ls := x.lines.filter (fun l => stillIn c x l.line)
  if ls = [] then pugWaits (bunDel c x.id) x.id false
  else
    let c := bunMod c x.id (fun y => { y with lines := ls, st := .formed, tag := none, sentFlits := 0, preempts := 0 })
    bqPush c x.port x.slice (if x.urgent then 0 else x.cls) false x.id

/-- A line of a durable bundle becomes Clean, or Invalid in a DEVICE region, a disabled cache or a way being converted; a held line leaves
the hold (R97, R180, R185, R191, R194). -/
def lineDurable (c : Core) (x : Bundle) (line : Nat) : Core :=
  if lineBundle c line ≠ some x.id then c
  else match dirtyLoc c line with
    | some (ph, cs, w, l) =>
      let c := if lcOffMode c ∨ lineType c line ≠ 1 ∨ wareFrom c ≤ w then lcFree c ph cs w
        else lcRaw c ph cs w { l with use := .clean, bundle := none, pin := false, mirrored := false, age := 0 }
      mirrorFree c x.slice line
    | none => { c with arr := { c.arr with hold := c.arr.hold.filter (fun h => h.line != line) } }

/-- BE_DURABLE with STAT = OK for a bundle (R266, R440). -/
def bundleDurable (c : Core) (x : Bundle) : Core :=
  let c := x.lines.foldl (fun c l => lineDurable c x l.line) c
  let ms : List MeterMsg := x.meters.map (fun m => { meter := m, q := 0, amount := 64 * x.lines.length })
  let c := { c with fab := { c.fab with meters := c.fab.meters ++ ms } }
  let c := waitersDone (bunDel c x.id) x.id .ok
  carry (keyApply (pugWaits c x.id false))

/-! ### Inbound flits of a B-port (R46, R54, R62, R264 to R274). -/

/-- A B-port's bundles in flight are abandoned, and its unanswered reads are held, also those that still wait to be sent (R75, R272). -/
def bAbandon (c : Core) (b : Nat) : Core :=
  let c := (c.bundles.filter (fun x => x.port == b && (x.st == .started || x.st == .sent))).foldl rebundle c
  let c := bpMod c b (fun x => { x with queue := x.queue.filter (fun m => !m.isRead) })
  { c with reads := c.reads.map (fun r => if r.port = b ∧ (r.st = .out ∨ r.st = .queued) then { r with st := .held } else r) }

/-- Step 1 of a B-port's reset, or its stop under R46 (R72, R75, R289). -/
def bClose (c : Core) (b : Nat) : Core :=
  if (bpGet c b).closed then c
  else
    let c := bAbandon c b
    keyApply (bpMod c b (fun x => { x with
      closed := true, ready := false, scanning := true, boundValid := false, bound := 0, deadTags := [], deadKeys := []
      credits := [0, 0, 0, 0, 0, 0], inCrd := [0, 0, 0, 0, 0, 0], cur := none }))

/-- A B-port takes and sends nothing: it is closed, or the block has halted (R72, R249). -/
def bShut (c : Core) (b : Nat) : Bool := (bpGet c b).closed || c.st.cur == .halt

/-- An open B-port grants its initial credits (R64, R72 step 7). -/
def bGrantIn (c : Core) (b : Nat) : Core :=
  if (bpGet c b).closed then c else crdOpen (bpMod c b (fun x => { x with inCrd := depthB })) (epB b) depthB

/-- The messages that a B-port takes (R51). -/
def bMsg : Msg → Bool
  | .beData | .beDurable | .beStatus | .beHealth => true
  | _ => false

/-- An inbound flit of a B-port: ignored while closed or without a credit, stopping, discarded, or of an opcode the port does not carry;
the entry is freed as the flit is drained (R46, R48, R62, R66). -/
def bHead (c : Core) (b : Nat) (f : Flit) (want : Msg) (k : Core → Flit → Core) : Core :=
  let cls := fClass f
  let held := decide (credit (bpGet c b).inCrd cls ≠ 0)
  let take := fun (c : Core) => bpMod c b (fun x => { x with inCrd := spend x.inCrd cls })
  if bShut c b then c
  else match fate [2, 3, 5] f with
    | .stop => bClose (bpMod c b (fun x => { x with stopped := true })) b
    | .discard => if held then bBack (hdrErr (take c) (epB b) f) b cls else c
    | .good =>
      let bad := !((fMsg f).map bMsg).getD false
      if !held || !(bad || fMsg f == some want) then c
      else if bad then bBack (protoErr (take c) (epB b) 1 (fLine f)) b cls
      else
        let y := ingressFlip (take c) (epB b) f
        bBack (k (countInj y.2 (epB b)) y.1) b cls

/-- An answer that names nothing open: dropped where its TAG waits out of use for it, else an error (R271, R488). -/
def bStray (c : Core) (b : Nat) (f : Flit) : Core :=
  if (bpGet c b).deadTags.contains (fTag f) then
    keyApply (bpMod c b (fun x => { x with deadTags := x.deadTags.erase (fTag f), deadKeys := x.deadKeys.filter (fun y => y.1 != fTag f) }))
  else protoErr c (epB b) 8 (fLine f)

/-- BE_DATA (R264, R271, R275). -/
def beData (c : Core) (b : Nat) (f : Flit) : Core :=
  match c.reads.find? (fun r => r.port == b && r.st == .out && r.tag == fTag f && localOf r.line == fLine f) with
  | none => bStray c b f
  | some r =>
    let c := statNote c (epB b) f
    let late := match r.bound with
      | some l => decide (r.sentAt + l < now c)
      | none => false
    let c := if late then ctrAdd (portFlag c (bpPage b + 4) 5) (bpPage b + 0x24) 32 1 else c
    let c := if fPoison f then ctrAdd c (bpPage b + 0x20) 32 1 else c
    let c := keyApply (readMod c r.sn (fun y => { y with st := .late }))
    match codeStat (fStat f) with
    | some st => if st.isErr then readFail c r .errTimeout
        else readOk c r (decryptBy (slotKey c r.key) r.line f.pay) (fPoison f || st == .okPoison)
    | none => readOk c r (decryptBy (slotKey c r.key) r.line f.pay) true

/-- The bundle that an answer on a port names. -/
def bundleOf (c : Core) (b tag : Nat) : Option Bundle :=
  c.bundles.find? (fun x => x.port == b && x.st == .sent && x.tag == some tag)

/-- BE_DURABLE (R266): answers the core and, where it made a bundle durable, that bundle. -/
def beDurable (c : Core) (b : Nat) (f : Flit) : Core × Option Bundle :=
  match bundleOf c b (fTag f) with
  | none => (bStray c b f, none)
  | some x =>
    if fStat f = 0 then (bundleDurable c x, some x)
    else (carry (keyApply (rebundle (protoErr c (epB b) 9 (fLine f)) x)), none)

/-- Move the data of a write-through whose back-end refuses it into the pinned hold, or let it wait there (R185). -/
def holdThrough (c : Core) (x : Bundle) : Core :=
  match c.arr.trk.find? (fun t => t.through && t.bundle == some x.id) with
  | none => c
  | some t =>
    match t.dirtyIn with
    | some (d, p) =>
      if holdFull c t.slice t.req.line then
        trkPut c { t with through := false, bundle := none, st := .place }
      else
        trkPut { c with arr := { c.arr with hold := c.arr.hold.filter (fun h => h.line != t.req.line) ++
            [{ slice := t.slice, line := t.req.line, data := d, poison := p }] } }
          { t with through := false, bundle := none, dirtyIn := none }
    | none => trkPut c { t with through := false, bundle := none }

/-- A bundle whose slot is EMPTY is given up, and its lines are pinned (R276). -/
def pinBundle (c : Core) (x : Bundle) : Core :=
  let c := (x.lines.filter (fun l => lineBundle c l.line == some x.id)).foldl (fun c l => setPin c l.line true) c
  pugWaits (waitersDone (holdThrough (bunDel (bqDrop c x.port x.id) x.id) x) x.id .errExhausted) x.id true

/-- The dirty lines of a slot that is to become EMPTY are pinned at once, but for those on their way under the old content (R276, R454). -/
def keyPin (c : Core) (k : Nat) : Core :=
  let c := (c.bundles.filter (fun b => b.key == k && b.st == .formed)).foldl pinBundle c
  let mine := fun (line : Nat) => match rgnIndex c line with
    | some r => rgnKey (rgnCur c r) == k
    | none => false
  let own := (c.arr.lc.filter (fun p => p.2.use.isDirty && !p.2.pin && p.2.bundle.isNone && mine p.2.line)).map (fun p => p.2.line)
  let held := (c.arr.hold.filter (fun h => !h.pinned && h.bundle.isNone && mine h.line)).map (fun h => h.line)
  carry ((own ++ held).foldl (fun c l => setPin c l true) c)

/-- A slot's content is replaced (R276, R277). -/
def keyReplace (c : Core) (k : Nat) (x : KeySlot) : Core :=
  let c := { c with keyNext := mput c.keyNext k x }
  keyApply (if x = .empty then keyPin c k else c)

/-- Regions that cover a bundle's lines. -/
def bundleRgns (c : Core) (x : Bundle) : List Nat :=
  (List.range 16).filter (fun r => x.lines.any (fun l => rgnIndex c l.line == some r))

/-- BE_STATUS EXHAUSTED (R99, R184, R185, R278). -/
def exhausted (c : Core) (b : Nat) (f : Flit) : Core :=
  match bundleOf c b (fTag f) with
  | none => bStray c b f
  | some x =>
    let rs := bundleRgns c x
    let c := (x.lines.filter (fun l => lineBundle c l.line == some x.id)).foldl (fun c l => setPin c l.line true) c
    let c := { c with rgn := rs.foldl (fun m r => mput m r { mget m r {} with wref := true, wrefSetAt := now c + 1 }) c.rgn }
    let c := rs.foldl (fun c r =>
      let e := mget c.rgn r {}
      if e.wrefClrAt = now c + 1 then hwSet c (0x10C + 0x10 * r) 9 else c) c
    let c := holdThrough c x
    let c := waitersDone (bunDel c x.id) x.id .errExhausted
    let c := ctrAdd (portFlag c (bpPage b + 4) 3) (bpPage b + 0x1C) 32 1
    let c := alarmEvent c 5 0x501 [wd (epB b), wd (fTag f), wd (fValue f), wd (ofBits rs)]
    carry (keyApply (pugWaits c x.id true))

/-- BE_STATUS SCANNING (R54, R272). -/
def scanning (c : Core) (b : Nat) (f : Flit) : Core :=
  let x := bpGet c b
  let c := bpMod c b (fun y => { y with scan := BitVec.ofNat 16 (fValue f), scanning := true, ready := false })
  if x.ready then event (keyApply (bAbandon c b)) 0x502 [wd (epB b)] else c

/-- Held reads of a port are reissued on the port that BP_WIN now gives; one without a port completes with ERR_DECODE (R75, R263,
R272). -/
def reissueReads (c : Core) (b : Nat) : Core :=
  let stray := fun (r : Read) => r.st == .held || (r.st == .queued && bportOf c r.line != some b)
  (c.reads.filter (fun r => r.port == b && stray r)).foldl (fun c r =>
    match bportOf c r.line with
    | none => readFail c r .errDecode
    | some p =>
      let c := bpMod c b (fun x => { x with queue := x.queue.filter (fun m => !m.isRead || m.id != r.sn) })
      bqPush (readMod c r.sn (fun y => { y with port := p, st := .queued })) p r.slice (if r.pref then 2 else 0) true r.sn) c

/-- BE_STATUS READY (R54, R258, R272). -/
def backReady (c : Core) (b : Nat) : Core :=
  carry (reissueReads (bpMod c b (fun y => { y with scanning := false, ready := true, reported := true })) b)

/-- A BE_STATUS is taken by its CODE; an unassigned one is an error (R54). -/
def beStatus (c : Core) (b : Nat) (f : Flit) (code : Nat) (k : Core → Core) : Core :=
  let mine := fCode f == code || fCode f == 0 || decide (4 < fCode f)
  if !mine && fate [2, 3, 5] f == .good && fMsg f == some .beStatus then c
  else bHead c b f .beStatus (fun c f =>
    let c := statNote c (epB b) f
    if fCode f = code then k c
    else if fCode f = 0 ∨ 4 < fCode f then protoErr c (epB b) 3 (fLine f)
    else c)

/-! ### Health (R273, R274, R393, R440). -/

/-- Bytes [hi:lo] of a payload as a number. -/
def payNum (l : Line) (lo hi : Nat) : Nat := l.toNat / 2 ^ (8 * lo) % 2 ^ (8 * (hi + 1 - lo))

/-- A report passes its CRC and has FORMAT 1 (R274). -/
def healthOk (l : Line) : Bool := payNum l 4 5 == 1 && payNum l 60 63 == crc32 (l.toNat % 2 ^ 480) 480

/-- A report is checked, placed in BP_HLTH and passed to CP, which tells of it while it runs (R18, R274). -/
def healthIn (c : Core) (b : Nat) (f : Flit) (cp : Bool) : Core :=
  let c := statNote c (epB b) f
  if !healthOk f.pay then protoErr c (epB b) 7 (fLine f)
  else
    let c := ringRouted (bpMod c b (fun x => { x with hlth := (List.range 16).map (payWord f.pay) })) 26
    if !cp then c
    else
    let c := event c 0x503 [wd (epB b), wd (payNum f.pay 6 7 + 65536 * payNum f.pay 10 11), payWord f.pay 0]
    if payNum f.pay 6 7 < c.pol.health.getD b 0 then alarm c 6 else c

/-- Add to an accumulator (R439). -/
def meterAdd (s : Saggar) (m q n : Nat) : Saggar :=
  { s with meters := mmod s.meters (m * 5 + q) {} (fun x => { x with acc := (x.acc + n) % 2 ^ 64 }) }

/-- LP meters the rise of MEDIA_WR: the total, and each meter in proportion to its DUR bytes on the port since (R440, Q 4). -/
def wearIn (s : Saggar) (b : Nat) (l : Line) : Saggar :=
  let m := payNum l 12 19
  let rise := match mfind? s.media b with
    | some old => (m + 2 ^ 64 - old) % 2 ^ 64 * 64
    | none => 0
  let dur := fun (k : Nat) => mget s.durSince (b * 17 + k) 0
  let all := (List.range 16).foldl (fun a k => a + dur k) 0
  let s := meterAdd s 16 4 rise
  let s := if all = 0 then s else (List.range 16).foldl (fun s k => if dur k = 0 then s else meterAdd s k 4 (rise * dur k / all)) s
  { s with media := mput s.media b m, durSince := s.durSince.filter (fun x => x.1 / 17 != b) }

/-! ### Timeouts (R271, R335). -/

/-- The read that a timeout names: by its TAG once sent (R268); 0x400 + i stands for the one of place i, oldest first, among the port's reads
that are queued or held and so have none. -/
def readNamed (c : Core) (b tag : Nat) : Option Read :=
  if tag < 0x400 then c.reads.find? (fun r => r.port == b && r.st == .out && r.tag == tag)
  else (c.reads.filter (fun r => r.port == b && (r.st == .queued || r.st == .held)))[tag - 0x400]?

/-- A BE_READ's timeout expires (R271): its TAG stays out of use where it has been sent. -/
def readTmo (c : Core) (b tag : Nat) : Core :=
  match readNamed c b tag with
  | none => c
  | some r =>
    if now c < r.t0 + beRdTmo c b then c
    else
      let c := ctrSat c 0x6000E 8 1
      let c := if r.st = .out then deadTag c b tag r.key else c
      keyApply (readFail c r .errTimeout)

/-- A bundle attempt's timeout expires (R271). -/
def bundleTmo (c : Core) (b tag : Nat) : Core :=
  match bundleOf c b tag with
  | none => c
  | some x =>
    if now c < x.t0 + beWrTmo c then c
    else
      let c := deadTag (ctrSat c 0x6000F 8 1) b tag x.key
      carry (keyApply (rebundle c x))

/-! ### The transfer arbiter (R282 to R287). -/

/-- Key of the statistics of a transfer-arbiter requester. -/
def arbKey (b rq : Nat) : Nat := b * 132 + rq

/-- Start weight of a requester (R287). -/
def startWeight (target rq : Nat) : Nat :=
  if target < 16 then (match rq % 4 with | 0 => 64 | 1 => 32 | _ => 8) else if rq = 0 then 64 else 8

/-- Where WMIN of a requester's class stands among the bounds; WMAX follows it (R391). -/
def boundAt (target rq : Nat) : Nat := if target < 16 then 8 + 2 * (rq % 4) else 16 + 2 * rq

/-- A value brought inside two bounds (R397). -/
def clamp (lo hi v : Nat) : Nat := max lo (min hi v)

/-- Present weight of a requester of an arbiter: its start value until CP has chosen one within the bounds (R287, R397). -/
def weightOf (c : Core) (target rq : Nat) : Nat :=
  let k := boundAt target rq
  clamp (c.pol.evalBounds.getD k 0) (c.pol.evalBounds.getD (k + 1) 255) (match c.pol.chosen with
    | some n => Config.policyChoice n (16 + target * 256 + rq)
    | none => startWeight target rq)

/-- The first message of each requester. -/
def bFirsts (x : BPort) : List BMsg :=
  x.queue.foldl (fun (a : List BMsg) m => if a.any (fun y => y.rq == m.rq) then a else a ++ [m]) []

/-- The 31 shared entries: a requester keeps its entry while it has a message ready, and those that find none wait in order (R283). -/
def bEntries (x : BPort) : List Nat :=
  let live := ((bFirsts x).map (fun m => m.rq)).filter (fun r => r % 4 != 0)
  let kept := x.entries.filter (fun r => live.contains r)
  kept ++ (live.filter (fun r => !kept.contains r)).take (31 - kept.length)

/-- The messages that hold entries: each demand-read requester's first, and the first of those with a shared entry (R283). -/
def bHeads (x : BPort) : List BMsg :=
  (bFirsts x).filter (fun m => m.rq % 4 == 0) ++ (bFirsts x).filter (fun m => m.rq % 4 != 0 && (bEntries x).contains m.rq)

/-- The key slot that a message uses. -/
def msgSlot (c : Core) (m : BMsg) : Nat :=
  if m.isRead then match c.reads.find? (fun r => r.sn == m.id) with
    | some r => (match rgnIndex c r.line with | some k => rgnKey (rgnCur c k) | none => 0)
    | none => 0
  else match bunGet c m.id with
    | some x => x.key
    | none => 0

/-- The class number of a message's next flit. -/
def msgClass (m : BMsg) : Nat := if m.isRead then 0 else 4

/-- Lowest free TAG of a B-port for reads or bundles (R268, R271). -/
def bFreeTag (c : Core) (b : Nat) (rd : Bool) : Option Nat :=
  let dead := (bpGet c b).deadTags
  if rd then firstFree 1024 (fun i => dead.contains i || c.reads.any (fun r => r.port == b && (r.st == .out || r.st == .late) && r.tag == i))
  else (firstFree 64 (fun i => dead.contains (0x800 + i) || c.bundles.any (fun x => x.port == b && x.tag == some (0x800 + i)))).map (0x800 + ·)

/-- A bundle follows every earlier one of its port that holds one of its lines: a back-end keeps the value it is sent last (R97). -/
def inOrder (c : Core) (m : BMsg) : Bool :=
  m.isRead || (match bunGet c m.id with
    | some x => c.bundles.all (fun y => y.port != x.port || decide (x.id ≤ y.id) || y.st == .sent ||
        y.lines.all (fun l => x.lines.all (fun k => k.line != l.line)))
    | none => true)

/-- A message may take part in a ranking: a credit of its class, a TAG, its turn among the bundles of its lines, and a slot whose content
is not being replaced (R268, R277, R284). -/
def bMay (c : Core) (b : Nat) (m : BMsg) : Bool :=
  let tagged := !m.isRead && (match bunGet c m.id with | some x => x.tag.isSome | none => false)
  decide (0 < credit (bpGet c b).credits (msgClass m)) && (tagged || (bFreeTag c b m.isRead).isSome) &&
    (mfind? c.keyNext (msgSlot c m)).isNone && inOrder c m

/-- Rules 1 to 3 of R284: m ranks before n. -/
def ranksBefore (x : BPort) (m n : BMsg) : Bool :=
  let lost := fun (k : BMsg) => if k.rq % 4 = 0 then mfind? x.lostAt k.rq else none
  let cm := mget x.ctrs m.rq 0
  let cn := mget x.ctrs n.rq 0
  let rest := if cm ≠ cn then decide (cn < cm)
    else if m.rq % 4 ≠ n.rq % 4 then decide (m.rq % 4 < n.rq % 4) else decide (m.rq < n.rq)
  match lost m, lost n with
  | some a, some b => if a = b then decide (m.rq < n.rq) else decide (a < b)
  | some _, none => true
  | none, some _ => false
  | none, none => rest

/-- The winner of a ranking (R284). In FLUSH, reads go ahead of bundles (R245, R246). -/
def bWinner (flush : Bool) (x : BPort) (l : List BMsg) : Option BMsg :=
  let l := if flush && l.any (fun m => m.isRead) then l.filter (fun m => m.isRead) else l
  l.find? (fun m => l.all (fun n => n.rq == m.rq || ranksBefore x m n))

/-- Charge flits to a requester's counter (R284). -/
def bCharge (c : Core) (b rq n : Nat) : Core :=
  bpMod c b (fun x => { x with ctrs := mput x.ctrs rq (max (mget x.ctrs rq 0 - n) (-32768)) })

/-- The losers of a ranking (R284, R287). -/
def bLosers (c : Core) (b : Nat) (w : BMsg) (l : List BMsg) : Core :=
  let lost := l.filter (fun m => m.rq != w.rq)
  let c := lost.foldl (fun c m => { c with arb := mmod c.arb (arbKey b m.rq) {} (fun a => { a with waits := (a.waits + 1) % 2 ^ 48 }) }) c
  bpMod c b (fun x => { x with
    lostAt := (lost.filter (fun m => m.rq % 4 == 0 && (mfind? x.lostAt m.rq).isNone)).foldl (fun a m => mput a m.rq x.lostSeq) x.lostAt
    lostSeq := x.lostSeq + 1 })

/-- The winner's grant is counted, with its wait (R287), and it has sent (R284 rule 1). -/
def bGranted (c : Core) (b : Nat) (m : BMsg) : Core :=
  let w := now c - m.t0
  let c := { c with arb := mmod c.arb (arbKey b m.rq) {} (fun a =>
    { a with grants := (a.grants + 1) % 2 ^ 48, maxWait := max a.maxWait (min w (2 ^ 32 - 1)) }) }
  bpMod c b (fun x => { x with lostAt := mdel x.lostAt m.rq })

/-- Drop a message from a port's queue. -/
def bDrop (c : Core) (b : Nat) (m : BMsg) : Core :=
  bpMod c b (fun x => { x with queue := x.queue.filter (fun y => !(y.isRead == m.isRead && y.id == m.id)) })

/-- Send a BE_READ (R264); one whose slot is EMPTY by now is refused (R276). -/
def sendRead (c : Core) (b : Nat) (m : BMsg) : Core :=
  match c.reads.find? (fun r => r.sn == m.id), bFreeTag c b true with
  | some r, some tag =>
    let k := msgSlot c m
    if slotKey c k = .empty then readFail (keyEmptyTold c r.line) r .errProtect
    else
      let x := bpGet c b
      let c := readMod (bDrop c b m) r.sn (fun y => { y with
        tag := tag, st := .out, sentAt := now c, key := k, bound := if x.boundValid then some x.bound.toNat else none })
      let f : OutFlit := { msg := .beRead, tag := tag, rid := if r.pref then 77 else backRid c r.slice (some r.trk), line := localOf r.line, be := beAll }
      bCharge (bpOut (countEj c (epB b)) b f) b m.rq 1
  | _, _ => bDrop c b m

/-- Send up to n flits of a bundle (R36, R265, R275). -/
def sendFlits : Nat → Core → Nat → BMsg → Core
  | 0, c, _, _ => c
  | n + 1, c, b, m =>
    match bunGet c m.id with
    | none => c
    | some x =>
      if credit (bpGet c b).credits 4 = 0 then c
      else match x.lines[x.sentFlits]? with
        | none => c
        | some l =>
          let last := decide (x.sentFlits + 1 = x.lines.length)
          let f : OutFlit := {
            msg := .beWrite, tag := x.tag.getD 0, rid := backRid c x.slice x.trk, poison := l.poison, line := localOf l.line, dv := true, be := beAll
            seq := x.sentFlits, last := last, data := encryptBy (slotKey c x.key) l.line l.data }
          let c := bCharge (bpOut (countEj c (epB b)) b f) b m.rq 1
          let c := bunMod c x.id (fun y => { y with sentFlits := y.sentFlits + 1, st := if last then .sent else .started, t0 := now c })
          if last then bDrop (bpMod c b (fun y => { y with cur := none })) b m
          else sendFlits n (bpMod c b (fun y => { y with cur := some x.id })) b m

/-- Start or continue a bundle (R265); one whose slot is EMPTY by now is pinned (R276). -/
def sendBundle (c : Core) (b : Nat) (m : BMsg) (n : Nat) : Core :=
  match bunGet c m.id with
  | none => bDrop c b m
  | some x =>
    if x.st = .formed ∧ slotKey c x.key = .empty then carry (pinBundle (bDrop c b m) x)
    else
      let tag := match x.tag with
        | some t => some t
        | none => bFreeTag c b false
      sendFlits n (bunMod c x.id (fun y => { y with tag := tag })) b m

/-- Send the winner's message. -/
def sendMsg (c : Core) (b : Nat) (m : BMsg) (n : Nat) : Core :=
  if m.isRead then sendRead c b m else sendBundle c b m n

/-- A demand message that preempts the bundle in flight, if any (R285, R286): its requester would win under rule 1 or rule 2. -/
def preemptor (c : Core) (b : Nat) (x : Bundle) (m : BMsg) : Option BMsg :=
  let y := bpGet c b
  let mx := fld (regv c (bpPage b + 0xC)) 2 0
  if x.urgent ∨ x.firm ∨ mx ≤ x.preempts then none
  else
    let ok := fun (k : BMsg) => (mfind? y.lostAt k.rq).isSome || decide (mget y.ctrs m.rq 0 < mget y.ctrs k.rq 0)
    bWinner false y ((bHeads y).filter (fun k => k.rq % 4 == 0 && bMay c b k && ok k))

/-- The port is granted for one message, or for flits of the bundle in flight (R284, R285). -/
def transfer (c : Core) (b n : Nat) : Core :=
  let c := bpMod c b (fun x => { x with entries := bEntries x })
  let y := bpGet c b
  if bShut c b || !y.ready then c
  else match y.cur with
    | some id =>
      match bunGet c id, y.queue.find? (fun m => !m.isRead && m.id == id) with
      | some x, some m =>
        match preemptor c b x m with
        | some k =>
          if credit y.credits 4 = 0 then c
          else
            let c := bpOut (countEj c (epB b)) b (abortFlit c x)
            let c := ctrAdd (bCharge c b m.rq 1) (bpPage b + 0x14) 48 1
            let c := bunMod c id (fun z => { z with st := .formed, sentFlits := 0, preempts := z.preempts + 1 })
            let c := bpMod c b (fun z => { z with cur := none })
            sendMsg (bGranted c b k) b k 1
        | none => sendFlits n c b m
      | _, _ => bpMod c b (fun z => { z with cur := none })
    | none =>
      let l := (bHeads y).filter (bMay c b)
      match bWinner (c.st.cur == .flush) y l with
      | some m => sendMsg (bGranted (bLosers c b m l) b m) b m n
      | none => c

/-- Length of a credit window in TB ticks: 2^WIN of BP_ARB, values below 6 acting as 6 and above 20 as 20 (R284, R289). -/
def windowLen (c : Core) (b : Nat) : Nat := 2 ^ max 6 (min 20 (fld (regv c (bpPage b + 0xC)) 7 3))

/-- B-port b's credit window has run for its whole length (R4, R284). -/
def windowOver (c : Core) (b : Nat) : Bool := decide ((bpGet c b).winAt + windowLen c b ≤ now c)

/-- A credit window begins (R284). -/
def window (c : Core) (b : Nat) : Core :=
  bpMod c b (fun x => { x with
    winAt := x.winAt + windowLen c b
    ctrs := (List.range 132).foldl (fun m rq => mput m rq (min (mget x.ctrs rq 0) 0 + (weightOf c b rq : Int))) [] })

/-! ### Bank arbiters (R280, R281). -/

/-- Key of a bank-arbiter requester's statistics: slice, requester. -/
def bankKey (s rq : Nat) : Nat := 16 * 132 + s * 6 + rq

/-- Accesses of a grant: one for the pipeline, a burst of at most 2 for others, 4 for Fettler's urgent scrub, 1 for the debug port
(R280, R281). -/
def bankCost (urgent : Bool) (rq : Nat) : Nat :=
  if rq = 0 then 1 else if urgent then (if rq = 3 then 4 else 1) else 2

/-- State of bank k of physical slice s. -/
def bankGet (c : Core) (s k : Nat) : BankSt := mget c.bankSt (s * 8 + k) {}

/-- The bank's record of a grant to w while l wait: `mid` where an access of the burst granted before is still to come (R281, R287). -/
def bankNext (t : Nat) (x : BankSt) (l : List Nat) (w : Nat) (urgent mid : Bool) : BankSt :=
  { urgent := urgent || (x.urgent && w != 0), lost := w != 0 && l.contains 0, last := some w
    resume := if mid then x.last else x.resume
    since := (l.filter (fun r => r != w)).foldl (fun m r => if (mfind? m r).isSome then m else mput m r t) (mdel x.since w) }

/-- A bank is granted to a requester of slice s: rankings lost, the grant, its cost and its wait are counted (R281, R287). -/
def bankGrant (c : Core) (s k : Nat) (l : List Nat) (w : Nat) (urgent mid : Bool) : Core :=
  let x := bankGet c s k
  let lost := l.filter (fun r => r != w)
  let wait := now c - mget x.since w (now c)
  let c := lost.foldl (fun c r => { c with arb := mmod c.arb (bankKey s r) {} (fun a => { a with waits := (a.waits + 1) % 2 ^ 48 }) }) c
  let c := { c with arb := mmod c.arb (bankKey s w) {} (fun a =>
    { a with grants := (a.grants + 1) % 2 ^ 48, credit := max (a.credit - (bankCost urgent w : Int)) (-32768)
             maxWait := max a.maxWait (min wait (2 ^ 32 - 1)) }) }
  { c with bankSt := mput c.bankSt (s * 8 + k) (bankNext (now c) x l w urgent mid) }

/-- An interrupted burst goes on with its interrupted access as the bank's next grant, whose accesses have been charged (R281). -/
def bankResume (c : Core) (s k w : Nat) : Core :=
  { c with arb := mmod c.arb (bankKey s w) {} (fun a => { a with grants := (a.grants + 1) % 2 ^ 48 })
           bankSt := mput c.bankSt (s * 8 + k) { bankGet c s k with resume := none, last := some w } }

/-- An emergency requester may take the bank: Fettler's urgent scrub or the debug port, unless a pipeline access waits that an emergency has
passed (R281). -/
def bankUrgent (x : BankSt) (l : List Nat) (urgent : Option Nat) : Option Nat :=
  urgent.filter (fun u => (u == 3 || u == 5) && !(x.urgent && l.contains 0))

/-- A bank arbiter's grant (R281): to an emergency at an access boundary; else a burst under way goes on, and an interrupted one resumes; else
the pipeline once it has lost, the fullest counter, the lower requester. -/
def bankRank (c : Core) (s k : Nat) (l : List Nat) (urgent : Option Nat) (mid : Bool) : Core :=
  let x := bankGet c s k
  let cr := fun (r : Nat) => (mget c.arb (bankKey s r) {}).credit
  match bankUrgent x l urgent, x.resume with
  | some u, _ => bankGrant c s k l u true mid
  | none, some w => if mid then c else bankResume c s k w
  | none, none =>
    let win := if x.lost && l.contains 0 then some 0
      else l.find? (fun m => l.all (fun n => n == m || decide (cr n < cr m) || (cr n == cr m && decide (m < n))))
    match win with
    | some w => if mid then c else bankGrant c s k l w false false
    | none => c

/-- Bank-arbiter counters are filled up with those of B-port b's window: slices 2b, 2b + 1, and the spare with port 15. -/
def bankWindow (c : Core) (b : Nat) : Core :=
  ((if b = 15 then [30, 31, 32] else [2 * b, 2 * b + 1]).flatMap (fun s => (List.range 6).map (fun r => (s, r)))).foldl
    (fun c x => { c with arb := mmod c.arb (bankKey x.1 x.2) {} (fun a =>
      { a with credit := min a.credit 0 + (weightOf c (16 + x.1) x.2 : Int) }) }) c

/-! ### The commands. -/

/-- BACKGROUND_BUNDLING (R181, R265, R385). -/
def execBackgroundBundling (slice : Fin 32) (lines : List Nat) (s : State) : Host.Outcome State Fault Refusal :=
  onCore s (fun c =>
    let run := c.st.cur == .ready || c.st.cur == .degraded || c.st.cur == .quiesced || c.st.cur == .service
    let l := (lines.filter (fun x => (bundleable c slice.val).contains x)).eraseDups.take 64
    if run then bundleMany l.length c slice.val 1 l none false else c)

/-- TRANSFER_GRANT (R284). -/
def execTransferGrant (b : Fin 16) (flits : Nat) (s : State) : Host.Outcome State Fault Refusal :=
  onCore s (fun c => transfer c b.val flits)

/-- CREDIT_WINDOW (R284). -/
def execCreditWindow (b : Fin 16) (s : State) : Host.Outcome State Fault Refusal :=
  onCore s (fun c => if windowOver c b.val then bankWindow (window c b.val) b.val else c)

/-- BANK_ARBITRATION (R281). The debug port ranks only while debug is unlocked. -/
def execBankArbitration (slice : Fin 33) (bank : Fin 8) (waiting : List (Fin 6)) (urgent : Urgency) (s : State) :
    Host.Outcome State Fault Refusal :=
  onCore s (fun c =>
    let dbg := s.sag.debugOpen != 0
    let l := (waiting.map (fun x => x.val)).filter (fun r => dbg || r != 5)
    let u := match urgent.who with
      | some x => if x.val = 5 && !dbg then none else some x.val
      | none => none
    bankRank c slice.val bank.val l u urgent.mid)

/-- BE_DATA (R264). -/
def execBeData (b : Fin 16) (f : Flit) (s : State) : Host.Outcome State Fault Refusal :=
  onCore s (fun c => bHead c b.val f .beData (fun c f => beData c b.val f))

/-- Durable bytes of a bundle, noted for the wear of its port and for the flush (R243, R255, R440). -/
def durableNoted (s : State) (b : Nat) (x : Bundle) : State :=
  let ds := x.meters.foldl (fun m k => mmod m (b * 17 + k) 0 (· + 64 * x.lines.length)) s.sag.durSince
  let s := { s with sag := { s.sag with durSince := ds } }
  if s.core.st.cur = .flush then
    let ms := s.pers.meters ++ x.meters.filter (fun k => !s.pers.meters.contains k)
    { s with pers := { s.pers with written := s.pers.written + x.lines.length, meters := ms } }
  else s

/-- BE_DURABLE (R266). -/
def execBeDurable (b : Fin 16) (f : Flit) (s : State) : Host.Outcome State Fault Refusal :=
  onState s (fun s =>
    let hit := match fMsg f, bundleOf s.core b.val (fTag f) with
      | some .beDurable, some x =>
        if bShut s.core b.val || fate [2, 3, 5] f != .good || fStat f != 0 || credit (bpGet s.core b.val).inCrd (fClass f) == 0 then none
        else some x
      | _, _ => none
    let s := withCore s (fun c => bHead c b.val f .beDurable (fun c f => (beDurable c b.val f).1))
    match hit with
    | some x => durableNoted s b.val x
    | none => s)

/-- EXHAUSTED (R278). In FLUSH the lines count as refused (R247). -/
def execExhausted (b : Fin 16) (f : Flit) (s : State) : Host.Outcome State Fault Refusal :=
  onCore s (fun c => beStatus c b.val f 1 (fun c => exhausted c b.val f))

/-- SCANNING (R272). -/
def execScanning (b : Fin 16) (f : Flit) (s : State) : Host.Outcome State Fault Refusal :=
  onCore s (fun c => beStatus c b.val f 2 (fun c => scanning c b.val f))

/-- READY (R258). -/
def execReady (b : Fin 16) (f : Flit) (s : State) : Host.Outcome State Fault Refusal :=
  onState s (fun s => startCheck (withCore s (fun c => beStatus c b.val f 3 (fun c => backReady c b.val))))

/-- BOUND (R270). -/
def execBound (b : Fin 16) (f : Flit) (s : State) : Host.Outcome State Fault Refusal :=
  onCore s (fun c => beStatus c b.val f 4 (fun c => bpMod c b.val (fun x => { x with boundValid := true, bound := wd (fValue f) })))

/-- BE_HEALTH (R274). -/
def execBeHealth (b : Fin 16) (f : Flit) (s : State) : Host.Outcome State Fault Refusal :=
  onState s (fun s =>
    let ok := !bShut s.core b.val && fate [2, 3, 5] f == .good && fMsg f == some .beHealth && healthOk f.pay &&
      credit (bpGet s.core b.val).inCrd (fClass f) != 0
    let cp := s.ctl.up && !s.ctl.down.contains 0
    let s := withCore s (fun c => bHead c b.val f .beHealth (fun c f => healthIn c b.val f cp))
    if ok && s.sag.lpRun then { s with sag := wearIn s.sag b.val f.pay } else s)

/-- BE_READ_TIMEOUT (R271). -/
def execBeReadTimeout (b : Fin 16) (tag : Nat) (s : State) : Host.Outcome State Fault Refusal :=
  onCore s (fun c => readTmo c b.val tag)

/-- BUNDLE_TIMEOUT (R271). -/
def execBundleTimeout (b : Fin 16) (tag : Nat) (s : State) : Host.Outcome State Fault Refusal :=
  onCore s (fun c => bundleTmo c b.val tag)

end Sys2Proof.Machine
end

