-- ==== Sys2Proof/Machine/SpanLink.lean ====
section
/-! DEFINITION. The span link layer, receiving; TRAIN, credits and replay; routes; sessions and SPAN_ACK; HELLO and ROUTE (R76, R293, R300 to
R308, R311, R312). -/

namespace Sys2Proof.Machine

/-- Page of S-port n (R344). -/
def spPage (n : Nat) : Nat := 0x98000 + 0x1000 * n

/-- The number that stands for S-port n where an event names a port. -/
def epS (n : Nat) : Nat := 106 + n

/-- The alarm of domain conflicts and role changes (R435). -/
def domAlarm (c : Core) (code : Nat) (par : List Word) : Core := alarmEvent c 7 code par

/-- Serial comparison: a is ahead of b modulo 2^w (R306, R312). -/
def aheadOf (w a b : Nat) : Bool :=
  let d := (a + 2 ^ w - b % 2 ^ w) % 2 ^ w
  decide (0 < d) && decide (d < 2 ^ (w - 1))

/-! ### Management packets (R311, R312). -/

/-- Cut bytes into payloads of 64, the last one filled with zeros. -/
def chunks : Nat → List Byte → List Line
  | 0, _ => []
  | n + 1, l => if l = [] then [] else lineOf (l.take 64) :: chunks n (l.drop 64)

/-- Number the flits of a packet (R36). -/
def mgtNumber (total : Nat) : Nat → List Line → List OutFlit
  | _, [] => []
  | i, l :: t =>
    { msg := .mgtPkt, dv := true, seq := i, last := decide (i + 1 = total), data := l } :: mgtNumber total (i + 1) t

/-- The flits of a packet whose header and body are given (R311). -/
def mgtFlits (bs : List Byte) : List OutFlit :=
  let ls := chunks 64 bs
  mgtNumber ls.length 0 ls

/-- A packet of this instance: header with the next PSEQ, then the body from byte 8 on. -/
def mgtPacket (c : Core) (ptype dst : Nat) (body : List Byte) : List OutFlit × Core :=
  (mgtFlits (leBytes ptype 1 ++ leBytes c.dom.inst 1 ++ leBytes dst 1 ++ leBytes (b2n c.dom.role) 1 ++ leBytes c.dom.pseq 4 ++ body),
   { c with dom := { c.dom with pseq := (c.dom.pseq + 1) % 2 ^ 32 } })

/-- The bytes of a received packet. -/
def mgtBytes (m : SpanMsg) : List Byte :=
  m.flits.flatMap (fun f => (List.range 64).map (lineByte f.data))

/-- Bytes lo to lo + n - 1 of a packet as a number. -/
def mgtNum (m : SpanMsg) (lo n : Nat) : Nat := leVal (((mgtBytes m).drop lo).take n)

/-- PTYPE (R311). -/
def mgtType (m : SpanMsg) : Nat := mgtNum m 0 1

/-- Send a packet in the MGT session of gateway 0 to one instance (R312). -/
def mgtSend (c : Core) (ptype dst : Nat) (body : List Byte) : Core :=
  let p := mgtPacket c ptype dst body
  spanSend p.2 0 dst .mgtPkt p.1

/-- The other members. -/
def others (c : Core) : List Nat := (List.range 16).filter (fun i => i != c.dom.inst && isMember c i)

/-- Send a packet with DST = 0xFF: one copy to each member (R312). -/
def mgtAll (c : Core) (ptype : Nat) (body : List Byte) : Core :=
  let p := mgtPacket c ptype 0xFF body
  (others c).foldl (fun c i => spanSend c 0 i .mgtPkt p.1) p.2

/-- Send a packet outside sessions on one S-port (R312). -/
def mgtLink (c : Core) (n ptype dst : Nat) (body : List Byte) : Core :=
  let p := mgtPacket c ptype dst body
  let fs : List SpanFlit := p.1.map (fun f => { src := c.dom.inst, dst := dst, gw := 0, eseq := 0, flit := encFlit f })
  let c := spMod p.2 n (fun s => { s with outq := s.outq ++ fs })
  linkPump (spGet c n).outq.length c n

/-- HELLO on a link (R312). -/
def sendHello (c : Core) (n : Nat) : Core :=
  mgtLink c n 1 (spGet c n).neighbour
    (leBytes c.dom.inst 1 ++ leBytes (b2n c.dom.strap + 2 * b2n c.dom.role) 1 ++ leBytes n 1 ++ leBytes 0 1 ++ leBytes 0x00020100 4
      ++ leBytes uidShown.toNat 8)

/-- This instance's hop count to instance i (R312). -/
def hopsTo (c : Core) (i : Nat) : Nat :=
  if i = c.dom.inst then 0
  else match activeRoute c i with
    | some n => (routeHops c n i).getD 255
    | none => 255

/-- ROUTE on a link (R312). -/
def sendRoute (c : Core) (n : Nat) : Core :=
  mgtLink c n 2 (spGet c n).neighbour ((List.range 16).flatMap (fun i => leBytes (hopsTo c i) 1) ++ leBytes c.dom.mver 4)

/-- ROUTE to every neighbour. -/
def sendRoutes (c : Core) : Core :=
  (List.range 4).foldl (fun c n => if (spGet c n).up && !(spGet c n).conflict then sendRoute c n else c) c

/-- The route table: hops to each instance through each S-port (R305). -/
def routeTable (c : Core) : List (Option Nat) := (List.range 16).flatMap (fun i => (List.range 4).map (fun n => routeHops c n i))

/-- The table may have changed from that of an earlier state: neighbours are told of any change, and waiting messages move to the new active
routes (R305, R307, R308, R312). -/
def routesNew (old c : Core) : Core :=
  if routeTable old = routeTable c then routesChanged c
  else
    let moved := (List.range 16).filter (fun i => activeRoute old i != activeRoute c i)
    let c := sendRoutes (routesChanged c)
    moved.foldl (fun c i => if (activeRoute c i).isSome then [0, 1, 2, 3].foldl (fun c k => spanResend c k i) c else c) c

/-! ### Link state (R302 to R304). -/

/-- A link leaves use: its replay state is discarded and its routes are gone (R76, R303). `lost` tells that one of the causes of R303 holds; a port
that stops (R46) loses the link that it had. -/
def linkDown (c : Core) (n : Nat) (lost : Bool) : Core :=
  let s := spGet c n
  let fresh : SPort := {
    resetIn := s.resetIn, stopped := s.stopped, linkUp := s.linkUp, conflict := s.conflict, neighbour := s.neighbour }
  let c' := { c with sport := mput c.sport n fresh }
  let c' := if lost || s.trained || s.up then event (portFlag c' (spPage n) 1) 0x702 [wd n, wd s.neighbour] else c'
  routesNew c c'

/-- The CREDIT frame that grants the link credits of R64 (R301, R304). -/
def creditFrame (c : Core) (n : Nat) : Frame :=
  mkFrame { hdr := 0, pay := lineOf ([32, 32, 32, 32, 32, 8].map (fun k => BitVec.ofNat 8 k)) }
    (mkLink 3 0 (fackOf (spGet c n)) 1 0 0 0 0 0 0)

/-- The exchange is complete (R304 steps 3 and 4). -/
def trainTry (c : Core) (n : Nat) : Core :=
  let s := spGet c n
  if s.sentStep1 && s.gotStep1 && !s.trained then
    let c := spMod c n (fun s => { s with trained := true, up := true, fseq := 0, expect := 0, replay := [], naked := false })
    sendHello (spDrive c n (creditFrame c n)) n
  else c

/-- A frame's FACK covers frames of the replay buffer (R302). -/
def fackIn (s : SPort) (fack : Nat) : SPort :=
  let kept := s.replay.filter (fun x => aheadOf 12 x.1 fack)
  { s with replay := kept, resends := if kept.length < s.replay.length then 0 else s.resends }

/-- What every good frame brings: FACK and a credit (R301, R302). -/
def linkHead (c : Core) (n : Nat) (fr : Frame) : Core :=
  let c := spMod c n (fun s =>
    let s := if lfld fr 28 28 = 1 then fackIn s (lfld fr 27 16) else s
    if lfld fr 32 32 = 1 then { s with credits := earn s.credits (lfld fr 31 29) 1 } else s)
  linkPump (spGet c n).outq.length c n

/-- The first bad or out-of-order frame is answered with one NAK (R302). -/
def nakOnce (c : Core) (n : Nat) : Core :=
  if (spGet c n).naked then c else spIdle (spMod c n (fun s => { s with naked := true })) n 2 0 0

/-- A frame of a kind arrives: one with a bad CRC is counted and answered with NAK; the rest goes to its handler (R301, R302). -/
def rxFrame (c : Core) (n ftype : Nat) (fr : Frame) (k : Core → Core) : Core :=
  let s := spGet c n
  if s.resetIn || s.stopped || !s.linkUp || c.st.cur == .halt || !(portsUp c || c.st.cur == .flush || c.ending) then c
  else if !frameOk fr then
    let v := ctrv c (spPage n + 4)
    let c := ctrSet c (spPage n + 4) (v / 65536 * 65536 + min (v % 65536 + 1) 0xFFFF)
    if s.trained then nakOnce c n else c
  else
    let c := spMod c n (fun s => { s with lastGood := now c })
    if lfld fr 3 0 ≠ ftype then c else k c

/-- Stored frames leave again with the present FACK (R302). -/
def refresh (fack : Nat) (fr : Frame) : Frame :=
  mkFrame fr.flit (mkLink 1 (lfld fr 15 4) fack 1 0 0 (lfld fr 36 33) (lfld fr 40 37) (lfld fr 42 41) (lfld fr 58 43))

/-- NAK: the sender resends from FACK + 1; after 8 resends without progress the link is lost (R302, R303). -/
def nakIn (c : Core) (n : Nat) : Core :=
  let s := spGet c n
  if s.replay = [] then c
  else if 8 ≤ s.resends then linkDown (spMod c n (fun s => { s with linkUp := false })) n true
  else
    let v := ctrv c (spPage n + 4)
    let c := ctrSet c (spPage n + 4) (v % 65536 + 65536 * min (v / 65536 + s.replay.length) 0xFFFF)
    let c := s.replay.foldl (fun c x => spDrive c n (refresh (fackOf s) x.2)) c
    spMod c n (fun s => { s with resends := s.resends + 1 })

/-! ### Sessions (R306, R307, R311). -/

/-- SPAN_ACK for sessions of an instance (R312). -/
def sendSpanAck (c : Core) (dst : Nat) (es : List (Nat × Nat × Nat)) : Core :=
  match activeRoute c dst with
  | none => c
  | some n =>
    mgtLink c n 3 dst (leBytes es.length 1 ++ leBytes 0 3 ++
      es.flatMap (fun e => leBytes (e.1 + 4 * e.2.1) 1 ++ leBytes 0 1 ++ leBytes e.2.2 2))

/-- A message that the family does not carry outside REQ is discarded when its turn in the session has come (R62). -/
def spanDrops (m : SpanMsg) : Bool :=
  msgCls m.msg != 0 && ((rxFlit m).odd || m.msg == .beWrite || m.msg == .beAbort || m.msg == .beDurable || m.msg == .beStatus ||
    m.msg == .beData || m.msg == .beHealth)

/-- A message of a session has arrived whole and in order: management packets go to HP, others to their gateway (R306, R311). -/
def sessionIn (c : Core) (m : SpanMsg) : Core :=
  let cls := msgCls m.msg
  let key := 16 * m.src + cls
  let c := gwMod c m.gw (fun g => { g with
    rxSeq := mput g.rxSeq key ((m.eseq + 1) % 65536)
    ackDue := match mfind? g.ackDue key with
      | some d => mput g.ackDue key (d.1 + 1, d.2)
      | none => mput g.ackDue key (1, now c)
    rx := if cls = 5 || spanDrops m then g.rx else g.rx ++ [m] })
  if cls = 5 && !spanDrops m then { c with dom := { c.dom with mgtIn := c.dom.mgtIn ++ [m] } } else c

/-- A flit for this instance: single packets outside sessions, else the session's next, an old, or a later message (R306, R312). -/
def localFlit (c : Core) (n : Nat) (fr : Frame) (f : OutFlit) : Core :=
  let src := lfld fr 36 33
  let gw := lfld fr 42 41
  let es := lfld fr 58 43
  let cls := msgCls f.msg
  let m : SpanMsg := { src := src, dst := lfld fr 40 37, gw := gw, eseq := es, msg := f.msg, flits := [f], t0 := now c }
  let pt := mgtType m
  if (spGet c n).conflict && !(f.msg == .mgtPkt && pt == 1) then c
  else if f.msg = .mgtPkt ∧ !f.odd ∧ f.seq = 0 ∧ 1 ≤ pt ∧ pt ≤ 3 then spMod c n (fun s => { s with mgt := s.mgt ++ [m] })
  else
    let g := gwGet c gw
    let e := mget g.rxSeq (16 * src + cls) 0
    if es = e then
      let pk := 64 * src + 8 * gw + cls
      let part := if f.seq = 0 then [] else mget (spGet c n).partQ pk []
      if f.last then
        sessionIn (spMod c n (fun s => { s with partQ := mdel s.partQ pk })) { m with flits := part ++ [f] }
      else spMod c n (fun s => { s with partQ := mput s.partQ pk (part ++ [f]) })
    else if aheadOf 16 e es ∧ f.last then sendSpanAck c src [(gw, cls, (e + 65535) % 65536)]
    else c

/-- A message that stands for a class. -/
def clsMsg : Nat → Msg
  | 0 => .fence | 1 => .snpInval | 2 => .ack | 3 => .cmpData | 4 => .evictClean | _ => .mgtPkt

/-- The fields of a flit on an S-port. A reserved STAT is poison where the message carries data and else reads ERR_TIMEOUT; an unassigned
opcode leaves the class (R61, R62). -/
def spanFields (f : Flit) : OutFlit :=
  match decFlit f with
  | some x => x
  | none =>
    let m := (fMsg f).getD (clsMsg (fClass f))
    let bad := statBad f
    { msg := m, tag := fTag f, rid := fRid f, stat := (codeStat (fStat f)).getD (if msgData m then .okPoison else .errTimeout)
      poison := fPoison f || (bad && msgData m), line := fLine f, gst := fGst f, dirty := fDirty f, res := f.hdr.getLsbD 88
      ackreq := f.hdr.getLsbD 90, reg := fReg f, odd := (fMsg f).isNone, dv := fDv f, be := fBe f, seq := fSeq f, last := fLast f
      data := f.pay }

/-- What an S-port reports of a flit for this instance: a reserved STAT, and outside REQ an opcode that the family does not carry (R62). -/
def spanNote (c : Core) (n : Nat) (f : Flit) (x : OutFlit) : Core :=
  let tell := fun (c : Core) (why : Nat) => event c 0x202 [wd (epS n), wd why, loW (fLine f * 64), hiW (fLine f * 64)]
  let c := if statBad f then tell c 2 else c
  if spanDrops { src := 0, dst := 0, gw := 0, eseq := 0, msg := x.msg, flits := [x] } then tell c 1 else c

/-- A FLIT frame accepted in sequence: its credit is returned, its header checked, and it is forwarded or delivered (R46, R302, R305,
R385). -/
def flitIn (c : Core) (n : Nat) (fr : Frame) : Core :=
  let f := fr.flit
  let quiet := c.reqStop || c.st.cur == .quiesced || c.st.cur == .service
  let c := spMod c n (fun s => { s with expect := (s.expect + 1) % 4096, naked := false, unacked := s.unacked + 1 })
  match fate [0, 1, 2, 3, 4, 5] f with
  | .stop => linkDown (spMod c n (fun s => { s with stopped := true })) n false
  | h =>
    let c := if quiet && fClass f == 0 then spMod c n (fun s => { s with owed := s.owed + 1 }) else spIdle c n 0 (fClass f) 1
    if h == .discard then hdrErr c (epS n) f
    else if lfld fr 40 37 ≠ c.dom.inst then
      if (spGet c n).conflict then c
      else match activeRoute c (lfld fr 40 37) with
        | some o =>
          let x : SpanFlit := { src := lfld fr 36 33, dst := lfld fr 40 37, gw := lfld fr 42 41, eseq := lfld fr 58 43, flit := f }
          let c := spMod c o (fun s => { s with outq := s.outq ++ [x] })
          linkPump (spGet c o).outq.length c o
        | none => c
    else
      let x := spanFields f
      localFlit (spanNote c n f x) n fr x

/-- Take the oldest link-layer packet of a type from an S-port. -/
def linkMgt (c : Core) (n ptype : Nat) : Option (SpanMsg × Core) :=
  match (spGet c n).mgt.find? (fun m => mgtType m == ptype) with
  | some m => some (m, spMod c n (fun s => { s with mgt := s.mgt.erase m }))
  | none => none

/-- The Chanter role changes hands: ROLE_CHG with its Bell, alarm, event (R293, R317, R319, R374). -/
def roleChange (c : Core) (role : Bool) (chanter : Nat) : Core :=
  let old := c.dom.chanter
  let was := c.dom.role
  let c := { c with dom := { c.dom with role := role, chanter := chanter, noChanter := false } }
  let c := if was == role then c else ringRouted (hwSet c 0x800 11) 27
  domAlarm c 0x701 [wd old, wd chanter]

/-- HELLO is received and checked (R293, R304). -/
def helloIn (c : Core) (n : Nat) : Core :=
  match linkMgt c n 1 with
  | none => c
  | some (m, c1) =>
    let i := mgtNum m 8 1 % 16
    let fl := mgtNum m 9 1
    if i = c.dom.inst then
      domAlarm (spMod c1 n (fun s => { s with conflict := true, neighbour := i, nbValid := true })) 0x704
        [wd n, wd (mgtNum m 16 4), wd (mgtNum m 20 4)]
    else
      let c2 := spMod c1 n (fun s => { s with conflict := false, neighbour := i, nbValid := true })
      let fresh := !(spGet c n).nbValid
      let c2 := if fresh then
          { c2 with dom := { c2.dom with deadRoutes := c2.dom.deadRoutes.filter (fun x => x % 16 != n) } } else c2
      let meet := c.dom.strap && c.dom.role && fl.testBit 0 && fl.testBit 1
      let c2 := if !meet then c2
        else if c.dom.inst < i then domAlarm c2 0x701 [wd i, wd c.dom.inst] else roleChange c2 false i
      routesNew c c2

/-- ROUTE is received (R305, R312). -/
def routeIn (c : Core) (n : Nat) : Core :=
  match linkMgt c n 2 with
  | none => c
  | some (m, c1) => routesNew c (spMod c1 n (fun s => { s with hops := (List.range 16).map (fun i => mgtNum m (8 + i) 1) }))

/-- Messages that have come to stand in a gateway's buffer, beside those that stood there, leave (R306). -/
def txAdmit (c : Core) (k : Nat) (stood : List SpanMsg) : Core :=
  let new := (txIn (gwGet c k).tx).filter (fun m => !stood.contains m)
  new.foldl spanPush (gwMod c k (fun g => { g with tx := g.tx.map (fun m => if new.contains m then { m with t0 := now c } else m) }))

/-- One entry of a SPAN_ACK frees the messages that it covers (R306, R312). -/
def ackEntry (c : Core) (src k cls es : Nat) : Core :=
  let old := (gwGet c k).tx
  let new := old.filter (fun m => !(m.dst == src && msgCls m.msg == cls && decide ((es + 65536 - m.eseq) % 65536 < 1024)))
  txAdmit (gwMod c k (fun g => { g with tx := new })) k (txIn old)

/-- SPAN_ACK is received (R306, R312). -/
def spanAckIn (c : Core) (n : Nat) : Core :=
  match linkMgt c n 3 with
  | none => c
  | some (m, c1) =>
    (List.range (min (mgtNum m 8 1) 13)).foldl (fun c j =>
      let b := mgtNum m (12 + 4 * j) 1
      ackEntry c m.src (b % 4) (b / 4 % 8) (mgtNum m (14 + 4 * j) 2)) c1

/-- A gateway returns the SPAN_ACKs that are due for an instance (R306). -/
def spanAckDue (c : Core) (k src : Nat) : Core :=
  let due := (gwGet c k).ackDue.filter (fun x => x.1 / 16 == src)
  if due.any (fun x => decide (16 ≤ x.2.1) || decide (x.2.2 + 50 ≤ now c)) && (activeRoute c src).isSome then
    let es := due.map (fun x => (k, x.1 % 16, (mget (gwGet c k).rxSeq x.1 0 + 65535) % 65536))
    sendSpanAck (gwMod c k (fun g => { g with ackDue := g.ackDue.filter (fun x => x.1 / 16 != src) })) src es
  else c

/-- REISSUE_WAIT in ticks (R307, R323). -/
def reissueWait (c : Core) : Nat := tmoTicks (fld (regv c 0x808) 7 0)

/-- No SPAN_ACK has covered a message in time: the route is out of use for the destination, and every unacknowledged message to it
leaves by the next one (R307). -/
def reissue (c : Core) (k dst : Nat) : Core :=
  let due := (txIn (gwGet c k).tx).any (fun m => m.dst == dst && decide (m.t0 + reissueWait c ≤ now c))
  match due, activeRoute c dst with
  | true, some n =>
    let c1 := { c with dom := { c.dom with deadRoutes := (16 * dst + n) :: c.dom.deadRoutes } }
    let c1 := [0, 1, 2, 3].foldl (fun c k => gwMod c k (fun g => { g with
      tx := g.tx.map (fun m => if m.dst = dst then { m with t0 := now c } else m) })) c1
    routesNew c c1
  | _, _ => c

/-! ### The commands. -/

/-- FLIT (R302). -/
def execFlit (n : Fin 4) (fr : Frame) (s : State) : Host.Outcome State Fault Refusal :=
  onCore s (fun c => rxFrame c n.val 1 fr (fun c =>
    if !(spGet c n.val).trained then c
    else
      let c := linkHead c n.val fr
      if lfld fr 15 4 = (spGet c n.val).expect then flitIn c n.val fr else nakOnce c n.val))

/-- NAK (R302). -/
def execNak (n : Fin 4) (fr : Frame) (s : State) : Host.Outcome State Fault Refusal :=
  onCore s (fun c => rxFrame c n.val 2 fr (fun c => if (spGet c n.val).trained then nakIn (linkHead c n.val fr) n.val else c))

/-- CREDIT (R301). -/
def execCredit (n : Fin 4) (fr : Frame) (s : State) : Host.Outcome State Fault Refusal :=
  onCore s (fun c => rxFrame c n.val 3 fr (fun c =>
    let c := linkHead c n.val fr
    let c := spMod c n.val (fun s => { s with
      credits := (List.range 6).foldl (fun l k => earn l k (payByte fr.flit k).toNat) s.credits })
    linkPump (spGet c n.val).outq.length c n.val))

/-- IDLE (R301). -/
def execIdle (n : Fin 4) (fr : Frame) (s : State) : Host.Outcome State Fault Refusal :=
  onCore s (fun c => rxFrame c n.val 0 fr (fun c => linkHead c n.val fr))

/-- TRAIN (R304). It tells the neighbour's instance ID, to which HELLO is addressed (assumption 60). -/
def execTrain (n : Fin 4) (fr : Frame) (s : State) : Host.Outcome State Fault Refusal :=
  onCore s (fun c => rxFrame c n.val 4 fr (fun c =>
    let c := spMod c n.val (fun s => { s with gotTrain := true, neighbour := (payByte fr.flit 1).toNat % 16 })
    if payByte fr.flit 0 = 0 then
      trainTry (spMod (spDrive c n.val (trainFrame c n.val 1)) n.val (fun s => { s with sentStep1 := true })) n.val
    else if payByte fr.flit 0 = 1 then trainTry (spMod c n.val (fun s => { s with gotStep1 := true })) n.val
    else c))

/-- TRAIN_ANNOUNCE (R304). -/
def execTrainAnnounce (n : Fin 4) (s : State) : Host.Outcome State Fault Refusal :=
  onCore s (fun c =>
    let x := spGet c n.val
    if portsUp c && x.linkUp && !x.resetIn && !x.stopped && !x.gotTrain && decide (x.lastTrain + 100 ≤ now c) then announce c n.val else c)

/-- LINK_UP (R304): Sn_LINK_UP rises; the first announcement leaves where the port is out of reset. -/
def execLinkUp (n : Fin 4) (s : State) : Host.Outcome State Fault Refusal :=
  onCore s (fun c =>
    let x := spGet c n.val
    if x.linkUp then c
    else
      let c := spMod c n.val (fun s => { s with linkUp := true, lastGood := now c })
      if x.resetIn || x.stopped || !portsUp c then c else announce c n.val)

/-- A trained link has carried no frame with a good CRC for 1,000 TB ticks (R303). -/
def linkSilent (c : Core) (n : Nat) : Bool := (spGet c n).trained && decide ((spGet c n).lastGood + 1000 ≤ now c)

/-- LINK_LOST (R303): Sn_LINK_UP falls, or the link has been silent too long. The link stays out of use until Sn_LINK_UP rises again; without it there
is no link to lose. -/
def execLinkLost (n : LinkLoss) (s : State) : Host.Outcome State Fault Refusal :=
  onCore s (fun c =>
    if !(spGet c n.n).linkUp || (n.silent && !linkSilent c n.n) then c
    else linkDown (spMod c n.n (fun s => { s with linkUp := false })) n.n true)

/-- SPAN_ACK_DUE (R306). -/
def execSpanAckDue (k : Fin 4) (src : Fin 16) (s : State) : Host.Outcome State Fault Refusal :=
  onCore s (fun c => spanAckDue c k.val src.val)

/-- REISSUE (R307). -/
def execReissue (k : Fin 4) (dst : Fin 16) (s : State) : Host.Outcome State Fault Refusal :=
  onCore s (fun c => reissue c k.val dst.val)

/-- HELLO (R293). -/
def execHello (n : Fin 4) (s : State) : Host.Outcome State Fault Refusal := onCore s (fun c => helloIn c n.val)

/-- HELLO_PERIOD (R312). -/
def execHelloPeriod (s : State) : Host.Outcome State Fault Refusal :=
  onCore s (fun c =>
    if now c < c.dom.helloAt + 2 ^ 16 then c
    else (List.range 4).foldl (fun c n => if (spGet c n).trained then sendHello c n else c)
      { c with dom := { c.dom with helloAt := now c } })

/-- ROUTE (R305). -/
def execRoute (n : Fin 4) (s : State) : Host.Outcome State Fault Refusal := onCore s (fun c => routeIn c n.val)

/-- ROUTE_PERIOD (R312). -/
def execRoutePeriod (s : State) : Host.Outcome State Fault Refusal :=
  onCore s (fun c =>
    if now c < c.dom.routeAt + 2 ^ 14 then c else sendRoutes { c with dom := { c.dom with routeAt := now c } })

/-- SPAN_ACK (R306). -/
def execSpanAck (n : Fin 4) (s : State) : Host.Outcome State Fault Refusal := onCore s (fun c => spanAckIn c n.val)

/-- REMOTE_SNOOP (R166). -/
def execRemoteSnoop (k : Fin 4) (s : State) : Host.Outcome State Fault Refusal :=
  onCore s (fun c => if portsUp c then remoteSnoop c k.val else c)

/-- GATEWAY_REQUEST (R297). -/
def execGatewayRequest (k : Fin 4) (s : State) : Host.Outcome State Fault Refusal := onCore s (fun c => gwPump c k.val)

/-- REMOTE_COMPLETION (R298). -/
def execRemoteCompletion (k : Fin 4) (s : State) : Host.Outcome State Fault Refusal :=
  onCore s (fun c => remoteDone c k.val (fun _ => true))

end Sys2Proof.Machine
end

