-- ==== Sys2Proof/Machine/Domain.lean ====
section
/-! DEFINITION. The management plane of the domain: domain time, maps, the Chanter role, loss and leave of an instance, the funnel (R309,
R311 to R321, R434). -/

namespace Sys2Proof.Machine

/-- HP runs, and so handles management packets of the sessions (R311, R18). -/
def hpRuns (s : State) : Bool := !s.ctl.down.contains 1

/-- Act as HP on the data side. -/
def onHp (s : State) (f : Core → Core) : Host.Outcome State Fault Refusal :=
  if s.core.st.cur = .off ∨ hpRuns s = false then .next s else .next { s with core := f s.core }

/-- Take the oldest packet of a type that the sessions have delivered. -/
def takeMgt (c : Core) (ptype : Nat) : Option (SpanMsg × Core) :=
  match c.dom.mgtIn.find? (fun m => mgtType m == ptype) with
  | some m => some (m, { c with dom := { c.dom with mgtIn := c.dom.mgtIn.erase m } })
  | none => none

/-- Change the management plane. -/
def domMod (c : Core) (f : Domain → Domain) : Core := { c with dom := f c.dom }

/-! ### Domain time (R314). -/

/-- Correct the domain time by an offset: small ones by slewing, large ones by a step forward or a hold. -/
def align (c : Core) (target : Nat) : Core :=
  let own : Int := c.dom.time.toNat
  let off : Int := (target : Int) - own
  if off.natAbs ≤ 64 then domMod c (fun d => { d with slew := off, hold := 0 })
  else if 0 < off then domMod c (fun d => { d with time := BitVec.ofNat 64 target, slew := 0, hold := 0 })
  else domMod c (fun d => { d with hold := off.natAbs, slew := 0 })

/-! ### An instance that is lost (R309). -/

/-- Remove an instance's sharer index from one filter way; a line it held EXCLUSIVE is poisoned, and where that poison finds no place the
entry stays for the next tick. A VECTOR bit is cleared once it covers no other member. -/
def purgeInstWay (i : Nat) (c : Core) (s si w : Nat) : Core :=
  let e := (sfRd c s si w).bits
  let l := eSharers c e
  if eState e = 0 ∨ l.contains (64 + i) = false then c
  else
    let line := eLine c si e
    let rest := l.filter (fun j => j != 64 + i)
    let e' :=
      if eVec e then
        if rest.any (fun j => vecBit j == vecBit (64 + i)) then e
        else
          let sh := eShr e &&& (2 ^ 24 - 1 - 2 ^ vecBit (64 + i))
          if sh = 0 then 0 else mkEntry 1 true (eTag e) sh (eLtag e)
      else if rest = [] then 0 else mkEntry (eState e) false (eTag e) (exactShr rest) (eLtag e)
    let fin := fun (c : Core) => if e' = e then c else (sfPut c s noTrk line w e').1
    if eState e ≠ 2 then fin c
    else match purgeWay.poisonLine c s line with
      | some c' => fin c'
      | none => domMod c (fun d => { d with purging := if d.purging.contains i then d.purging else d.purging ++ [i] })

/-- The homes' part of a loss: the index leaves the filter, open snoops and awaited write-backs end, and so do the ACKs that the
instance owes. -/
def purgeHomes (c : Core) (i : Nat) : Core :=
  let c := (sfListed c).foldl (fun c k => purgeInstWay i c k.1 k.2.1 k.2.2) c
  let c := c.arr.trk.foldl (fun c t => if t.snoops.any (fun x => x.who == 64 + i) then homeGone c t.req.line t.idx (64 + i) else c) c
  let c := c.arr.trk.foldl (fun c t => if t.awaitWb.any (fun x => x.1 == 64 + i) then homeNoWb c t.req.line t.idx (64 + i) else c) c
  carry { c with arr := { c.arr with trk := c.arr.trk.map (fun t => if t.req.rid = 80 + i then { t with acked := true } else t) } }

/-- The completion of a request that ends with ERR_SPAN (R309). -/
def spanErr (r : Req) : Cmp :=
  { dst := r.src, tag := r.tag, data := if readMsg (opMsg r.op) then some 0 else none, stat := .errSpan, line := r.line }

/-- A gateway's part of a loss: requests toward the instance complete with ERR_SPAN, its messages are dropped, and the local holders of
its lines are invalidated. Answers the number of lines discarded. -/
def purgeGateway (c : Core) (k i : Nat) : Core × Nat :=
  let g := gwGet c k
  let open_ := g.tags.filter (fun t => t.dst == i && !t.expired && !t.ackWait && t.req.src != gwOwn)
  let waits := g.lineq.filter (fun r => instOf r.line == i && r.src != gwOwn)
  let ends := open_.map (fun t => spanErr t.req) ++ waits.map spanErr
  let c := { c with fab := { c.fab with cmps := c.fab.cmps ++ ends } }
  let c := gwMod c k (fun g => { g with
    tags := g.tags.filter (fun t => t.dst != i)
    lineq := g.lineq.filter (fun r => instOf r.line != i)
    tx := g.tx.filter (fun m => m.dst != i)
    rx := g.rx.filter (fun m => m.src != i)
    snoops := g.snoops.map (fun s => if s.home = i ∧ !s.own then { s with own := true, frid := ownLost, home := c.dom.inst } else s) })
  let lines := ((gwGet c k).pf.filter (fun p => pState p.2.bits != 0)).map (fun p => pLine k (p.1 / 16) p.2.bits)
  let mine := lines.filter (fun l => instOf l == i)
  let c := mine.foldl (fun c l =>
    match pfFind c l with
    | some w =>
      if (gwGet c k).snoops.any (fun s => s.line == l) then c
      else gwSnoopSend c k { line := l, home := c.dom.inst, tag := ownTag, msg := .snpInval, frid := ownLost, ftag := 0, waits := [], own := true }
        (pAgents (pfRd c k (pfSet l) w).bits)
    | none => c) c
  (c, mine.length)

/-- The lines of lost instances whose poison has found no place so far are tried again (R309). -/
def purgeLeft (c : Core) : Core := c.dom.purging.foldl purgeHomes (domMod c (fun d => { d with purging := [] }))

/-- Everything R309 asks of an instance that applies a map without i; the event tells of a loss, not of an orderly leave. -/
def purgeInst (lost : Nat → Bool) (c : Core) (i : Nat) : Core :=
  let c := purgeHomes c i
  let r := [0, 1, 2, 3].foldl (fun x k => let y := purgeGateway x.1 k i; (y.1, x.2 + y.2)) (c, 0)
  let c := domMod r.1 (fun d => { d with noRouteAt := mdel d.noRouteAt i, arrived := d.arrived.filter (fun a => a.2 != i) })
  if lost i then event c 0x703 [wd i, wd r.2] else c

/-- A change of DOM_MEMBERS rings bit 27 (R374). -/
def membersBell (old c : Core) : Core :=
  if old.dom.members = c.dom.members ∧ old.dom.leaving = c.dom.leaving then c else ringRouted c 27

/-! ### Maps and the Chanter role (R312, R317 to R321). -/

/-- MEMBER and LEAVING as bytes. -/
def mapBytes (c : Core) : List Byte := leBytes c.dom.members.toNat 2 ++ leBytes c.dom.leaving.toNat 2

/-- The Chanter sends its map (R312). -/
def sendMember (c : Core) : Core := mgtAll c 0xC (mapBytes c ++ leBytes c.dom.mver 4)

/-- HEARTBEAT (R312, R314). -/
def sendBeat (c : Core) : Core :=
  domMod (mgtAll c 4 (leBytes c.dom.time.toNat 8 ++ leBytes c.dom.mver 4 ++ mapBytes c)) (fun d => { d with lastBeatSent := now c })

/-- An open ARRIVE goes to the Chanter, or is counted there (R315, R318). -/
def sendArrive (c : Core) : Core :=
  match c.dom.barrier with
  | none => c
  | some b =>
    if c.dom.role then domMod c (fun d => { d with
      arrived := if d.arrived.contains (b, d.inst) then d.arrived else d.arrived ++ [(b, d.inst)] })
    else mgtSend c 8 c.dom.chanter (leBytes b 2)

/-- Records in FUNNEL packets that the old Chanter has not acknowledged are lost (R318). -/
def funnelDrop (c : Core) (old : Nat) : Core :=
  let l := (gwGet c 0).tx.filter (fun m => m.dst == old && m.msg == .mgtPkt && mgtType m == 0xA)
  domMod c (fun d => { d with funnelLost := d.funnelLost + l.foldl (fun a m => a + mgtNum m 12 2) 0 })

/-- This instance hears a Chanter: a new one gets the open barrier again, and what the old one did not acknowledge is lost (R318). -/
def hearChanter (c : Core) (i : Nat) : Core :=
  let old := c.dom.chanter
  let c := domMod c (fun d => { d with lastBeat := now c, noChanter := false, chanter := i })
  if old = i then c else sendArrive (funnelDrop c old)

/-- This instance takes the Chanter role (R317, R318). -/
def takeRole (c : Core) : Core :=
  let old := c.dom.chanter
  let c := roleChange (funnelDrop c old) true c.dom.inst
  sendMember (sendBeat (sendArrive c))

/-- Step 3 of an orderly leave: the proxy back-invalidates its entries (R168, R321). -/
def gwLeave (c : Core) : Core :=
  if !isLeaving c c.dom.inst then c
  else [0, 1, 2, 3].foldl (fun c k =>
    (((gwGet c k).pf.filter (fun p => pState p.2.bits != 0)).map (fun p => pLine k (p.1 / 16) p.2.bits)).foldl (fun c l =>
      match pfFind c l with
      | some w =>
        if gwLineBusy c l then c
        else gwSnoopSend c k { line := l, home := c.dom.inst, tag := ownTag, msg := .snpInval, frid := ownLeave, ftag := 0, waits := [], own := true }
          (pAgents (pfRd c k (pfSet l) w).bits)
      | none => c) c) c

/-- A map takes effect: instances no longer listed are purged, and a leave of this instance begins (R309, R312, R320, R321). -/
def applyMap (c : Core) (members leaving : BitVec 16) (mver : Nat) : Core :=
  let own : BitVec 16 := BitVec.ofNat 16 (2 ^ c.dom.inst)
  let inMap := members.getLsbD c.dom.inst
  let new := if inMap then members else own
  let gone := (others c).filter (fun i => !new.getLsbD i)
  let left := fun (i : Nat) => isLeaving c i || isLeaving c c.dom.inst
  let c1 := domMod c (fun d => { d with members := new ||| own, leaving := if inMap then leaving else 0, mver := mver % 2 ^ 32 })
  let c := gone.foldl (purgeInst (fun i => !left i)) (routesChanged (membersBell c c1))
  gwLeave (carry c)

/-- Apply a received map if its version is ahead (R312). A Drone that is the lowest left, once its Chanter has left, takes the role at
once (R321). -/
def mapIn (c : Core) (members leaving : BitVec 16) (mver : Nat) : Core :=
  if !aheadOf 32 mver c.dom.mver then c
  else
    let c := applyMap c members leaving mver
    let first := ((List.range 16).find? (fun i => c.dom.members.getLsbD i)).getD c.dom.inst
    if !c.dom.role && !c.dom.members.getLsbD c.dom.chanter && first == c.dom.inst then takeRole c else c

/-- The Chanter changes the map by one version and sends it (R309, R312, R320, R321). -/
def newMap (c : Core) (members leaving : BitVec 16) : Core :=
  let c0 := domMod c (fun d => { d with mver := (d.mver + 1) % 2 ^ 32 })
  let told := sendMember (domMod c0 (fun d => { d with members := members, leaving := leaving }))
  let c1 := domMod told (fun d => { d with members := c.dom.members, leaving := c.dom.leaving })
  applyMap c1 members leaving c0.dom.mver

/-- An instance whose bit is set in the join mask joins once it has a live route (R320). -/
def joinCheck (c : Core) : Core :=
  if !c.dom.role then c
  else
    let add := (List.range 16).filter (fun i => c.dom.join.getLsbD i && !isMember c i && (activeRoute c i).isSome)
    if add = [] then c
    else newMap (domMod c (fun d => { d with join := d.join &&& ~~~ BitVec.ofNat 16 (ofBits add) }))
      (c.dom.members ||| BitVec.ofNat 16 (ofBits add)) c.dom.leaving

/-- HEARTBEAT is received (R314, R319). -/
def beatIn (c : Core) : Core :=
  match takeMgt c 4 with
  | none => c
  | some (m, c) =>
    let go := fun (c : Core) =>
      let c := align (hearChanter c m.src) (mgtNum m 8 8 + c.dom.delay)
      mapIn c (BitVec.ofNat 16 (mgtNum m 20 2)) (BitVec.ofNat 16 (mgtNum m 22 2)) (mgtNum m 16 4)
    if c.dom.role then
      if m.src < c.dom.inst then go (sendArrive (roleChange c false m.src)) else c
    else go c

/-- ECHO is received (R312, R314). -/
def echoIn (c : Core) : Core :=
  match takeMgt c 5 with
  | none => c
  | some (m, c) =>
    if mgtNum m 8 1 = 0 then
      if c.dom.role then
        mgtSend c 5 m.src (leBytes 1 1 ++ leBytes 0 3 ++ leBytes (mgtNum m 12 4) 4 ++ leBytes (mgtNum m 16 8) 8 ++ leBytes c.dom.time.toNat 8)
      else c
    else if c.dom.role ∨ m.src ≠ c.dom.chanter ∨ mgtNum m 12 4 ≠ c.dom.echoId then c
    else
      let d := (now c - mgtNum m 16 8) / 2
      align (domMod c (fun y => { y with delay := d })) (mgtNum m 24 8 + d)

/-- MEMBER is received (R312). -/
def memberIn (c : Core) : Core :=
  match takeMgt c 0xC with
  | none => c
  | some (m, c) => mapIn c (BitVec.ofNat 16 (mgtNum m 8 2)) (BitVec.ofNat 16 (mgtNum m 10 2)) (mgtNum m 12 4)

/-- DEAD_WAIT in ticks (R309, R323). -/
def deadWait (c : Core) : Nat :=
  let v := fld (regv c 0x808) 15 8
  (if v = 0 then 1 else v) * 256

/-- An instance without a live route for DEAD_WAIT is lost: the Chanter changes the map; a Drone that cannot reach the Chanter applies
the steps by its own count (R309). -/
def instLost (c : Core) (i : Nat) : Core :=
  match mfind? c.dom.noRouteAt i with
  | none => c
  | some t =>
    let bit : BitVec 16 := BitVec.ofNat 16 (2 ^ i)
    if now c + 1 < t + deadWait c ∨ i = c.dom.inst ∨ isMember c i = false then c
    else if c.dom.role then newMap c (c.dom.members &&& ~~~ bit) (c.dom.leaving &&& ~~~ bit)
    else if (activeRoute c c.dom.chanter).isNone then
      let c1 := domMod c (fun d => { d with members := d.members &&& ~~~ bit, leaving := d.leaving &&& ~~~ bit })
      purgeInst (fun _ => true) (membersBell c c1) i
    else c

/-- None of this instance's messages toward or from a leaving instance is unacknowledged (R321 step 4). -/
def leaveQuiet (c : Core) : Bool :=
  let out := fun (i : Nat) => isLeaving c i || isLeaving c c.dom.inst
  [0, 1, 2, 3].all (fun k =>
    let g := gwGet c k
    !(g.tx.any (fun m => out m.dst)) && !(g.rx.any (fun m => out m.src)) && !(g.tags.any (fun t => out t.dst)))

/-- Steps 4 and 5 of an orderly leave at the Chanter: once every member has reported, the map without the leaving instances (R321). -/
def leaveReport (c : Core) (i : Nat) : Core :=
  let c := gwLeave (carry c)
  if !c.dom.role || c.dom.leaving == 0 || !isMember c i || (i == c.dom.inst && !leaveQuiet c) then c
  else
    let c := domMod c (fun d => { d with reports := if d.reports.contains i then d.reports else d.reports ++ [i] })
    if !((List.range 16).all (fun j => !isMember c j || c.dom.reports.contains j)) then c
    else
      let rest := c.dom.members &&& ~~~ c.dom.leaving
      let own := isLeaving c c.dom.inst
      let next := ((List.range 16).find? (fun j => rest.getLsbD j)).getD c.dom.inst
      let c := newMap (domMod c (fun d => { d with reports := [] })) rest 0
      if own && next != c.dom.inst then roleChange c false next else c

/-! ### The funnel (R316, R434). -/

/-- The words of a FUNNEL packet's records, cut by their NPAR (R312, R426). -/
def cutRecords : Nat → List Word → List (List Word)
  | 0, _ => []
  | n + 1, l =>
    match l with
    | [] => []
    | w :: _ => let k := 3 + fld w 3 0; l.take k :: cutRecords n (l.drop k)

/-- FUNNEL is received: each record enters the Chanter's own Flue; a lost count writes FUNNEL_LOST (R316, R434). -/
def funnelIn (c : Core) : Core :=
  match takeMgt c 0xA with
  | none => c
  | some (m, c) =>
    if !c.dom.role then c
    else
      let bs := mgtBytes m
      let words := (List.range ((bs.length - 16) / 4)).map (fun j => wd (leVal ((bs.drop (16 + 4 * j)).take 4)))
      let c := (cutRecords (mgtNum m 12 2) words).foldl (fun c r => flueRing c { c with flue := flueCommit c.flue r }) c
      if mgtNum m 8 4 = 0 then c else event c 0x002 [wd m.src, wd (mgtNum m 8 4)]

/-- Records of a FUNNEL packet: as many as fit in 64 flits (R311, R312). -/
def funnelTake : Nat → List (List Word) → List (List Word)
  | _, [] => []
  | room, r :: t => if 4 * r.length ≤ room then r :: funnelTake (room - 4 * r.length) t else []

/-- HP sends the records that wait for the funnel; without a route to the Chanter they are counted as lost (R316). -/
def funnelSend (c : Core) : Core :=
  if c.dom.funnelQ = [] ∨ c.dom.role = true then c
  else if (activeRoute c c.dom.chanter).isNone then
    domMod c (fun d => { d with funnelLost := d.funnelLost + d.funnelQ.length, funnelQ := [] })
  else
    let rs := funnelTake 4080 c.dom.funnelQ
    let body := leBytes c.dom.funnelLost 4 ++ leBytes rs.length 2 ++ leBytes 0 2 ++ rs.flatMap (fun r => r.flatMap (fun w => leBytes w.toNat 4))
    domMod (mgtSend c 0xA c.dom.chanter body) (fun d => { d with funnelLost := 0, funnelQ := d.funnelQ.drop rs.length })

/-! ### The commands. -/

/-- ECHO (R312, R314). -/
def execEcho (s : State) : Host.Outcome State Fault Refusal := onHp s echoIn

/-- ECHO_REQUEST (R314). -/
def execEchoRequest (s : State) : Host.Outcome State Fault Refusal :=
  onHp s (fun c =>
    if c.dom.role then c
    else
      let c := domMod c (fun d => { d with echoId := (d.echoId + 1) % 2 ^ 32 })
      mgtSend c 5 c.dom.chanter (leBytes 0 4 ++ leBytes c.dom.echoId 4 ++ leBytes (now c) 8))

/-- NO_CHANTER (R323). -/
def execNoChanter (s : State) : Host.Outcome State Fault Refusal :=
  onHp s (fun c =>
    if c.dom.role || decide (now c < c.dom.lastBeat + 65536) then c else domMod c (fun d => { d with noChanter := true }))

/-- FUNNEL (R316). -/
def execFunnel (s : State) : Host.Outcome State Fault Refusal := onHp s funnelIn

end Sys2Proof.Machine
end

