-- ==== Sys2Proof/Machine/Slices.lean ====
section
/-! DEFINITION. Failed slices, links and routers, takeover by the partner, routing-table changes, live migration and rotation (R16, R28 to
R30, R324, R332 to R341, R407 to R417). -/

namespace Sys2Proof.Machine

/-! ### Where slices stand (R324, R325, R407). -/

/-- Hops between two routers (R324). -/
def manhattan (a b : Nat × Nat) : Nat := (a.1 - b.1) + (b.1 - a.1) + ((a.2 - b.2) + (b.2 - a.2))

/-- Two physical slices sit on adjacent routers. -/
def adjacent (a b : Nat) : Bool := manhattan (routerOf a) (routerOf b) == 1

/-- The spare is ready: it has passed its full test (R407). -/
def spareReady (b : Bisque) : Option Nat := if b.testing then none else b.spare

/-- Logical slices that a spare at physical slice q may take over, given where the others are borne (R407). -/
def movable (bearer : Map Nat) (q : Nat) : List Nat :=
  (List.range 32).filter (fun s =>
    let pp := mget bearer (partnerOf s) (partnerOf s)
    adjacent q pp && mget bearer s s != pp)

/-- A chain of at most n live migrations that brings the spare from q next to physical slice pp: the logical slices in turn (R417). -/
def chain : Nat → Map Nat → Nat → Nat → Nat → Option (List Nat)
  | 0, _, q, pp, _ => if adjacent q pp then some [] else none
  | n + 1, bearer, q, pp, s =>
    if adjacent q pp then some []
    else
      ((movable bearer q).filter (fun u => u != s && u != partnerOf s)).findSome? (fun u =>
        (chain n (mput bearer u q) (mget bearer u u) pp s).map (fun l => u :: l))

/-- The shortest chain of at most 8 migrations, if there is one (R417). -/
def findChain (bearer : Map Nat) (q pp s : Nat) : Option (List Nat) :=
  (List.range 9).findSome? (fun n => chain n bearer q pp s)

/-! ### Dirty lines beyond the limit (R183, R415). -/

/-- The sets of a physical slice that hold lines. -/
def setsAt (c : Core) (ph : Nat) : List Nat :=
  ((c.arr.lc.filter (fun p => p.1 / 32768 == ph)).map (fun p => p.1 / 16 % 2048)).eraseDups

/-- The n oldest of a list of ways of a set. -/
def oldest (c : Core) (ph cs : Nat) : Nat → List Nat → List Nat
  | 0, _ => []
  | n + 1, l => match minBy (fun w => (lcRd c ph cs w).age) l with
    | some w => w :: oldest c ph cs n (l.erase w)
    | none => []

/-- A slice bundles each set's budgeted lines beyond L(c), the oldest first (R183). -/
def drainExcess (c : Core) (s : Nat) : Core :=
  let ph := physOf c s
  let lines := (setsAt c ph).flatMap (fun cs =>
    let own := lcDirtyWays c s cs .budgeted
    let free := own.filter (fun w => let l := lcRd c ph cs w; l.bundle.isNone && !l.pin)
    (oldest c ph cs (own.length - lcL c s cs) free).map (fun w => (lcRd c ph cs w).line))
  bundleMany lines.length c s 1 lines none false

/-- Every slice drains what is beyond its limit. -/
def drainAll (c : Core) : Core := (List.range 32).foldl drainExcess c

/-! ### Takeover (R411 to R415). -/

/-- What a transaction that its home has lost leaves to its ingress: the request is reissued from its record unless its completion is on
its way; a write-back whose payload has been released is reissued by its header (R412, R413). -/
def reissueOf (c : Core) (t : Trk) : List Req :=
  if t.second ∨ t.req.op = .prefetch ∨ t.cmpSent ∨ t.pool = .internal then []
  else if t.req.op = .wbDirty then
    let kept : Bool := if 66 ≤ t.req.src ∧ t.req.src < 82 then
        match (cpGet c (t.req.src - 66)).tags.find? (fun g => g.tag == t.req.tag) with
        | some g => g.held
        | none => true
      else true
    [if kept then t.req else { t.req with op := .evictClean, data := 0, poison := false }]
  else [t.req]

/-- The trackers of a slice that satisfy a test are lost, and their requests reissued, ahead of later ones of the same ingress (R50, R413
step 4). -/
def loseTrackers (c : Core) (p : Trk → Bool) : Core :=
  let l := c.arr.trk.filter p
  let again := l.flatMap (reissueOf c)
  { c with arr := { c.arr with trk := c.arr.trk.filter (fun t => !p t) }
           fab := { c.fab with reqs := again ++ c.fab.reqs } }

/-- The back-end side of a lost slice: its reads and bundles are gone, the TAGs of those under way wait out of use for a late answer, and
a bundle that is only partly sent is aborted (R267, R271). -/
def loseBackend (c : Core) (s ph : Nat) : Core :=
  let rs := c.reads.filter (fun r => r.slice == s && r.phys == ph)
  let c := rs.foldl (fun c r =>
    let c := if r.st == .out then deadTag c r.port r.tag r.key else c
    readDel c r) c
  let bs := c.bundles.filter (fun x => x.slice == s)
  bs.foldl (fun c x =>
    let c := bunDel (bqDrop c x.port x.id) x.id
    let c := if x.st == .started then bpOut c x.port (abortFlit c x) else c
    let c := bpMod c x.port (fun y => { y with cur := if y.cur = some x.id then none else y.cur })
    match x.tag, x.st with
    | some t, .sent => deadTag c x.port t x.key
    | _, _ => c) c

/-- Lines of CLEAN jobs whose bundle is gone wait for a new one (R197). -/
def pugRewait (c : Core) : Core :=
  [0, 1, 2, 3].foldl (fun c j =>
    let gone := (mget c.pug j {}).waits.filter (fun w => (bunGet c w.2).isNone)
    gone.foldl (fun c w =>
      let p := mget c.pug j {}
      let c := { c with pug := mput c.pug j { p with waits := p.waits.erase w } }
      if (dirtyValue c w.1).isNone then pugDone c j
      else
        let b := urgentBundle c (sliceOf c w.1) w.1 none (some j) false
        match b.1 with
        | some id =>
          let p := mget b.2.pug j {}
          { b.2 with pug := mput b.2.pug j { p with waits := p.waits ++ [(w.1, id)] } }
        | none => pugDone b.2 j) c) c

/-- A dirty line gets a Mirror in another way of its set in the physical slice that bears both partners (R415). -/
def remirror (pp : Nat) (c : Core) (k : Nat × Nat) : Core :=
  let l := lcRd c pp k.1 k.2
  let r := lcPickWrite c pp l.line
  let c := match r.1 with
    | some v => lcRaw r.2 pp k.1 v { use := .mirror, line := l.line, poison := l.poison, hway := k.2, data := l.data, dbad := l.dbad }
    | none => r.2
  lcRaw c pp k.1 k.2 { l with mirrored := true }

/-- The partner's physical slice bears slice s from now on (R413): its copy of the filter partition becomes the home copy, its Mirrors of s
become budgeted dirty lines, what Pa's open transactions had changed there is lost under R155, and the rest of Pa is gone. Where the
replacement was requested, the requests that have not passed LOOKUP are handed over in their order (R134, R411). -/
def takeover (c : Core) (s ph : Nat) (handed : Bool) : Core :=
  let t := partnerOf s
  let pp := physOf c t
  let c := { c with bearer := mput c.bearer s pp, role := mput c.role s .takeover }
  let sf := c.arr.sfPart.filter (fun p => p.1 / 65536 == s)
  let open_ := ((c.arr.changes.filter (fun r => r.slice == s)).flatMap (fun r => r.lines)).eraseDups
  let arr := { c.arr with
    sfHome := sf.foldl (fun m p => mput m p.1 p.2) (c.arr.sfHome.filter (fun p => p.1 / 65536 != s))
    sfNru := c.arr.sfNru.filter (fun p => p.1 / 4096 != s)
    lc := (c.arr.lc.filter (fun p => p.1 / 32768 != ph)).map (fun p =>
      if p.1 / 32768 = pp ∧ p.2.use = .mirror ∧ sliceOf c p.2.line = s then
        (p.1, { p.2 with use := .budgeted, hway := 0, bundle := none, mirrored := false, age := c.arr.age }) else p)
    lcNru := c.arr.lcNru.filter (fun p => p.1 / 2048 != ph)
    nruBad := c.arr.nruBad.filter (fun p => p.1 || p.2 / 2048 != ph)
    resv := c.arr.resv.filter (fun r => r.1 != s)
    mon := c.arr.mon.filter (fun p => p.1 / 12 != s)
    setRec := c.arr.setRec.filter (fun r => r.slice != s && r.slice != t)
    changes := c.arr.changes.filter (fun r => r.slice != s && r.slice != t)
    lost := c.arr.lost.map (fun x => if x.slice = s then { x with next := 0 } else x)
    ware := c.arr.ware.map (fun w => if w.1 % 32 = s then (w.1, { w.2 with bad := true }) else w) }
  let fab := { c.fab with
    mirW := c.fab.mirW.filter (fun m => m.slice != s), mirA := c.fab.mirA.filter (fun m => m.1 != s)
    filtW := c.fab.filtW.filter (fun m => m.slice != s), filtA := c.fab.filtA.filter (fun m => m.1 != s)
    mirRel := c.fab.mirRel.filter (fun m => m.1 != s), closeN := c.fab.closeN.filter (fun m => m.1 != s) }
  let waits := fun (t : Trk) => handed && (t.st == .queued || t.st == .bourdon)
  let c := loseTrackers (loseBackend { c with arr := arr, fab := fab } s ph) (fun t => t.slice == s && !waits t)
  let c := { c with arr := { c.arr with trk := c.arr.trk.map (fun t => if t.slice = s then { t with phys := pp } else t) } }
  let c := open_.foldl (fun c line =>
    match sfFind c s line with
    | some w => { c with arr := { c.arr with
        sfHome := mdel c.arr.sfHome (sfKey s (sfSet line) w), sfPart := mdel c.arr.sfPart (sfKey s (sfSet line) w) } }
    | none => c) c
  let c := ((open_.filter (fun l => !above16T l)).map sfSet).eraseDups.foldl (fun c si => coverSet c s si) c
  let c := (List.range 16).foldl (fun c p =>
    ((cpGet c p).recs.filter (fun d => d.phys == ph)).foldl (fun c d =>
      resendData c p d.agent d.line d.phys d.trk d.data d.poison) c) c
  let dirty := (c.arr.lc.filter (fun p => p.1 / 32768 == pp && p.2.use.isDirty &&
    ((mirFind c (sliceOf c p.2.line) p.2.line).isNone))).map (fun p => (p.1 / 16 % 2048, p.1 % 16))
  let c := dirty.foldl (remirror pp) c
  let c := { c with arr := { c.arr with age := c.arr.age + 1 } }
  let c := pugRewait (drainExcess (drainExcess c s) t)
  ((c.arr.trk.filter (fun x => x.slice == t && x.st == .lookup)).map (fun x => sfSet x.req.line)).eraseDups.foldl
    (fun c si => relook c t si) c

/-! ### Migration, rebuild, chains (R407 to R410, R416, R417). -/

/-- A live migration of slice s into the spare q begins (R408 steps 1 and 2). -/
def migrate (s : State) (sl q : Nat) (rebuild : Bool) : State :=
  { s with
    bisq := { s.bisq with migr := some (sl, physOf s.core sl, q), window := false, rebuild := rebuild }
    core := drainExcess { s.core with role := mput s.core.role sl .migrating } sl }

/-- A logical slice that its partner's physical slice serves, the odd one of a pair second. -/
def servedByPartner (c : Core) : Option Nat := (List.range 32).find? (fun s => oneCopy c s && roleOf c s == .takeover)

/-- NDR_STATE leads from READY to DEGRADED (R384). -/
def degrade (c : Core) : Core := if c.st.cur = .ready then setState c .degraded else c

/-- Bisque runs: not in the states in which it pauses, and not while transactions end for a flush or a reset (R243, R385, R407). -/
def bisqueRuns (c : Core) : Bool := (c.st.cur == .ready || c.st.cur == .degraded || c.st.cur == .waitBackend) && !c.ending

/-- A table change for some slices begins, or begins again (R339, R341). -/
def tableStart (c : Core) (slices : List Nat) : Core :=
  { c with fabric := { c.fabric with quiesce := true, since := now c, dests := (c.fabric.dests ++ slices).eraseDups } }

/-- A slice enters the window of a takeover: its reservations end (R223), and the Bourdon covers up to four slices (R130). -/
def takeWindow (c : Core) (s : Nat) : Core :=
  let c := { c with arr := { c.arr with mon := c.arr.mon.filter (fun p => p.1 / 12 != s) } }
  if c.fabric.taken.contains s || decide (4 ≤ ((List.range 32).filter (sliceCovered c)).length) then c
  else { c with fabric := { c.fabric with taken := c.fabric.taken ++ [s] } }

/-- With a ready spare, the rebuild of a slice that its partner serves starts, or the chain that brings the spare next to it, or the next
step of that chain (R416, R417). -/
def rebuildNext (s : State) : State :=
  if !bisqueRuns s.core then s
  else match spareReady s.bisq, s.bisq.migr, servedByPartner s.core with
  | some q, none, some sl =>
    let pp := physOf s.core sl
    if adjacent q pp then migrate { s with bisq := { s.bisq with walk := [] } } sl q true
    else
      let todo := if s.bisq.walk = [] then findChain s.core.bearer q pp sl else some s.bisq.walk
      match todo with
      | some (u :: rest) => migrate { s with bisq := { s.bisq with walk := rest } } u q false
      | _ => withCore s (fun c => degrade (event c 0x403 [wd sl]))
  | _, _, _ => s

/-- A migration is abandoned: its slice stays where it is (R410). -/
def abandonMigr (s : State) : State :=
  match s.bisq.migr with
  | none => s
  | some (sl, pa, pb) =>
    let c := loseTrackers s.core (fun t => t.slice == sl && t.phys == pb && pa != pb)
    let c := if oneCopy c sl then { c with role := mput c.role sl .takeover } else { c with role := mput c.role sl .active }
    let dests := c.fabric.dests.filter (fun d => d != sl)
    let fabric := { c.fabric with quiesce := dests != [] || c.fabric.taken != [], dests := dests }
    { s with bisq := { s.bisq with migr := none, window := false, rebuild := false, walk := [] }
             core := uncover { c with fabric := fabric } (fun t => t.slice == sl && (setLost c sl (sfSet t.req.line)).isNone) }

/-- A dirty line that is lost in both copies reads poisoned from now on (R30). -/
def poisonAt (c : Core) (ph : Nat) : Core :=
  let lost := c.arr.lc.any (fun p => p.1 / 32768 == ph && p.2.use.isDirty)
  let c := { c with arr := { c.arr with
    lc := (c.arr.lc.filter (fun p => p.1 / 32768 != ph || p.2.use.isDirty)).map (fun p =>
      if p.1 / 32768 = ph then (p.1, { p.2 with poison := true }) else p) } }
  if lost then alarm c 1 else c

/-- A physical slice is declared failed (R411): the record of it, a spare that goes out, a takeover, and the rebuild (R410, R413, R416). -/
def sliceDown (s : State) (ph cause : Nat) : State :=
  if s.core.out.contains ph then s
  else
    let ready := (spareReady s.bisq).isSome
    let s := match s.bisq.migr with
      | some (_, pa, pb) => if pa = ph ∨ pb = ph then abandonMigr s else s
      | none => s
    let c := alarmEvent (ctrSat s.core 0x4200A 8 1) 13 0x402 [wd ph, wd cause]
    let c := { c with out := c.out ++ [ph], arr := { c.arr with replace := c.arr.replace.filter (fun p => p != ph) } }
    let s := { s with core := c, bisq := { s.bisq with repl := if s.bisq.repl = some ph then none else s.bisq.repl } }
    if s.bisq.spare = some ph then
      { s with bisq := { s.bisq with spare := none, testing := false, borrowed := [] }
               core := { s.core with role := mput s.core.role 32 .recovering } }
    else match (List.range 32).filter (fun sl => physOf s.core sl == ph) with
      | [sl] =>
        let c := event (takeover (takeWindow (tableStart s.core [sl]) sl) sl ph (cause = 4)) 0x302 [4, wd sl]
        let c := carry c
        let c := if ready then c else degrade c
        rebuildNext { s with core := c, bisq := { s.bisq with borrowed := s.bisq.borrowed.filter (fun b => b.1 != ph) } }
      | _ => withCore s (fun c => poisonAt c ph)

/-- Open transactions of the slices that a physical slice bears: those that have passed LOOKUP (R411). -/
def openAt (c : Core) (ph : Nat) : Bool :=
  c.arr.trk.any (fun t => t.phys == ph && t.st != .queued && t.st != .bourdon)

/-- A requested replacement: the slice first finishes its open transactions under a cut-over window (R411). -/
def replaceSlice (s : State) (ph : Nat) : State :=
  if s.core.out.contains ph then s
  else if openAt s.core ph ∧ s.bisq.migr.isNone then
    let c := ((List.range 32).filter (fun sl => physOf s.core sl == ph)).foldl
      (fun c sl => takeWindow { c with role := mput c.role sl .cutover } sl) s.core
    { s with core := c, bisq := { s.bisq with repl := some ph } }
  else sliceDown s ph 4

/-! ### The fabric (R332, R333, R339, R341). -/

/-- The two routers that a link joins (R343). -/
def linkEnds (l : Nat) : (Nat × Nat) × (Nat × Nat) :=
  if l < 56 then ((l % 7, l / 7), (l % 7 + 1, l / 7)) else (((l - 56) / 7, (l - 56) % 7), ((l - 56) / 7, (l - 56) % 7 + 1))

/-- The links of a router. -/
def linksOf (r : Nat × Nat) : List Nat := (List.range 112).filter (fun l => (linkEnds l).1 == r || (linkEnds l).2 == r)

/-- A router without a link has failed: its slice is taken over, its ports stop, and anything else raises FABRIC_CORE (R29, R332, R333). -/
def routerDown (s : State) (x y : Nat) : State :=
  let n := 8 * y + x
  if s.core.fabric.routers.contains n then s
  else
    let s := withCore s (fun c => { c with fabric := { c.fabric with routers := c.fabric.routers ++ [n] } })
    if x = 0 then withCore s (fun c => [2 * y, 2 * y + 1].foldl (fun c p => cClose (cpMod c p (fun q => { q with stopped := true })) p) c)
    else if x = 7 then withCore s (fun c => [2 * y, 2 * y + 1].foldl (fun c b => bClose (bpMod c b (fun q => { q with stopped := true })) b) c)
    else if y = 0 then
      withCore s (fun c => ((List.range 8).filter (fun d => d % 6 == x - 1)).foldl (fun c d =>
        dClose (dpMod c d (fun q => { q with stopped := true })) d) c)
    else if (y - 1) * 6 + (x - 1) < 33 then sliceDown s ((y - 1) * 6 + (x - 1)) 2
    else withCore s (fun c => alarm c 9)

/-- Nderam declares a link failed, and reports the part that has left service (R27, R332; assumption 82). -/
def fabricLinkDown (s : State) (l : Nat) : State :=
  if s.core.fabric.links.contains l then s
  else
    let s := withCore s (fun c => tableStart (ringRouted { c with fabric := { c.fabric with links := c.fabric.links ++ [l] } } 21) [])
    [(linkEnds l).1, (linkEnds l).2].foldl (fun s r =>
      if (linksOf r).all (fun k => s.core.fabric.links.contains k) then routerDown s r.1 r.2 else s) s

/-- Steps 4 and 5 of a table change (R339): the new entries are in force, and the windows of takeovers close (R134, R413). -/
def tableDone (s : State) : State :=
  let moved := (List.range 32).any (fun sl => physOf s.core sl != sl) || s.bisq.window
  withCore s (fun c => if !c.fabric.quiesce then c
    else
      let stops := c.fabric.taken.filter (sliceStops c)
      let ends := c.fabric.taken.filter (fun sl => !sliceStops c sl)
      let c := { c with fabric := { c.fabric with quiesce := false, dests := [], taken := stops, detour := c.fabric.links != [] || moved } }
      carry (uncover c (fun t => ends.contains t.slice && (setLost c t.slice (sfSet t.req.line)).isNone)))

/-! ### The stages of a migration (R408). -/

/-- The slice whose bearer's last full test is oldest, among those for which the spare is ready; not while NDR_STATE is not READY (R407). -/
def rotateNext (s : State) : State :=
  if !bisqueRuns s.core || s.core.st.cur != .ready then s
  else match spareReady s.bisq, s.bisq.migr with
  | some q, none =>
    match minBy (fun sl => mget s.bisq.tested (physOf s.core sl) 0) (movable s.core.bearer q) with
    | some sl => migrate s sl q false
    | none => s
  | _, _ => s

/-- ROT_PERIOD in ticks (R418). -/
def rotPeriod (c : Core) : Nat :=
  let v := fld (regv c 0x42000) 10 3
  (if v = 0 then 1 else v) * 2 ^ 28

/-- The copy is complete: the cut-over window opens (R408 steps 4 and 5, R134, R223). Requests still queued pass to the Bourdon. -/
def copyDone (s : State) : State :=
  match s.bisq.migr with
  | none => s
  | some (sl, _, pb) =>
    if s.bisq.window || !bisqueRuns s.core then s
    else
      let c := s.core
      let c := { c with
        role := mput c.role sl .cutover
        arr := { c.arr with
          mon := c.arr.mon.filter (fun p => p.1 / 12 != sl)
          trk := c.arr.trk.map (fun t => if t.slice = sl ∧ t.st = .queued then { t with phys := pb } else t) } }
      { s with bisq := { s.bisq with window := true }, core := tableStart c [sl] }

/-- One location of the old bearer moves to the new one: into the same way where that may be used, else into a free one; a Clean line that
finds none is dropped (R408 step 3). -/
def moveLoc (pa pb : Nat) (c : Core) (k : Nat × Nat) : Core :=
  let l := lcRd c pa k.1 k.2
  let free := fun (w : Nat) => decide (w < 16) && lcUsable c pb k.1 w && (lcRd c pb k.1 w).use == .invalid
  let way := if free k.2 then some k.2 else (List.range 16).find? free
  match way with
  | none => if l.use == .clean then lcFree c pa k.1 k.2 else c
  | some w =>
    let c := lcRaw (lcFree c pa k.1 k.2) pb k.1 w l
    if l.use.isDirty && w != k.2 then
      match (List.range 16).find? (fun v => let m := lcRd c (physOf c (partnerOf (sliceOf c l.line))) k.1 v
          m.use == .mirror && m.line == l.line) with
      | some v =>
        let pp := physOf c (partnerOf (sliceOf c l.line))
        lcRaw c pp k.1 v { lcRd c pp k.1 v with hway := w }
      | none => c
    else c

/-- The new bearer holds what the old one held for slice s: its own lines and the Mirrors of its partner's; Clean lines give way to the others
(R408 step 3, R409). -/
def moveSlice (c : Core) (sl pa pb : Nat) : Core :=
  let keys := (c.arr.lc.filter (fun p => p.1 / 32768 == pa &&
    ((p.2.use == .mirror && sliceOf c p.2.line == partnerOf sl) ||
      ((p.2.use == .clean || p.2.use.isDirty) && sliceOf c p.2.line == sl)))).map (fun p => (p.1 / 16 % 2048, p.1 % 16))
  let clean := fun (k : Nat × Nat) => (lcRd c pa k.1 k.2).use == .clean
  (keys.filter (fun k => !clean k) ++ keys.filter clean).foldl (moveLoc pa pb) c

/-- Both filter partitions of a pair are in two copies again (R416). -/
def recopy (c : Core) (sl : Nat) : Core :=
  let mine := fun (k : Nat) => k / 65536 == sl || k / 65536 == partnerOf sl
  let home := c.arr.sfHome.filter (fun p => mine p.1)
  { c with arr := { c.arr with sfPart := home.foldl (fun m p => mput m p.1 p.2) (c.arr.sfPart.filter (fun p => !mine p.1)) } }

/-- Every tracker entry of the slice at the old bearer is free: the window closes (R408 steps 6 and 7, R416). A requested replacement
proceeds to the takeover (R411). While there is no spare, page 32 keeps naming the bearer of the rebuilt slice (assumption 83). -/
def closeWindow (s : State) : State :=
  match s.bisq.migr, s.bisq.repl with
  | some (sl, pa, pb), _ =>
    if !s.bisq.window || !bisqueRuns s.core || s.core.fabric.quiesce || s.core.arr.trk.any (fun t => t.slice == sl && t.phys == pa) then s
    else
      let c := moveSlice { s.core with arr := { s.core.arr with replace := s.core.arr.replace.filter (fun p => p != pa) } } sl pa pb
      let c := { c with bearer := mput c.bearer sl pb, role := mput c.role sl .active }
      let c := if s.bisq.rebuild then recopy c sl else { c with bearer := mput c.bearer 32 pa, role := mput c.role 32 .recovering }
      let c := uncover c (fun t => t.slice == sl && (setLost c sl (sfSet t.req.line)).isNone)
      let c := event (ctrAdd c 0x42008 16 1) 0x401 [wd sl, wd pa, wd pb]
      let c := event c 0x302 [5, wd sl]
      let c := if s.bisq.rebuild && c.st.cur == .degraded && !anyOneCopy c then setState c .ready else c
      let c := if s.bisq.rebuild then { c with role := mput c.role 32 .recovering } else c
      { s with core := carry c
               bisq := { s.bisq with migr := none, window := false, rebuild := false
                                     spare := if s.bisq.rebuild then none else some pa, testing := !s.bisq.rebuild } }
  | none, some ph => if openAt s.core ph then s else sliceDown s ph 4
  | none, none => s

/-- The full test of a recovering spare ends (R408 step 8). Page 32 keeps naming a slice that the test took out of service (assumption 83). -/
def spareTested (s : State) (ok : Bool) : State :=
  match s.bisq.testing, s.bisq.spare with
  | true, some q =>
    if ok then
      rebuildNext { s with bisq := { s.bisq with testing := false, tested := mput s.bisq.tested q (now s.core) }
                           core := { s.core with role := mput s.core.role 32 .spare } }
    else
      { s with bisq := { s.bisq with testing := false, spare := none, walk := [] }
               core := hwSet { s.core with out := s.core.out ++ [q] } 0x42004 22 }
  | _, _ => s

/-! ### The commands. -/

/-- A slice is declared failed; cause 4 takes up a replacement that R160 or R187 has requested (R411). -/
def sliceFailed (s : State) (ph cause : Nat) : State :=
  if cause ≠ 4 then sliceDown s ph cause
  else if s.core.arr.replace.contains ph then replaceSlice s ph
  else s

/-- SLICE_FAILED (R411). -/
def execSliceFailed (phys : Fin 33) (cause : Fin 5) (s : State) : Host.Outcome State Fault Refusal :=
  onState s (fun s => sliceFailed s phys.val cause.val)

/-- MIRROR_ACK_TIMEOUT (R335): 256 ticks without an acknowledgment. Tracker number 256 stands for a set read. -/
def execMirrorAckTimeout (slice : Fin 32) (trk : Nat) (s : State) : Host.Outcome State Fault Refusal :=
  onState s (fun s =>
    let c := s.core
    let late : Bool := if trk = noTrk then
        c.arr.setRec.any (fun r => r.slice == slice.val && decide (r.t0 + 256 ≤ now c))
      else match trkGet c slice.val trk with
        | some t => (t.mirrors != 0 || t.fcopies != 0) && decide (t.sentAt + 256 ≤ now c)
        | none => false
    if late && !oneCopy c slice.val then sliceDown s (physOf c (partnerOf slice.val)) 1 else s)

/-- LINK_FAILED (R332). -/
def execLinkFailed (link : Fin 112) (s : State) : Host.Outcome State Fault Refusal :=
  onState s (fun s => if s.core.fabric.links.contains link.val then s
    else fabricLinkDown (withCore s (fun c => arrayError c { cat := 6, kind := 0 })) link.val)

/-- TABLE_CHANGE (R339). -/
def execTableChange (s : State) : Host.Outcome State Fault Refusal := onState s tableDone

/-- TABLE_CHANGE_TIMEOUT (R341): step 3 has not ended within 64 ticks. -/
def execTableChangeTimeout (link : Fin 112) (s : State) : Host.Outcome State Fault Refusal :=
  onState s (fun s =>
    if s.core.fabric.quiesce ∧ s.core.fabric.since + 64 ≤ now s.core then fabricLinkDown (withCore s (fun c => tableStart c [])) link.val else s)

/-- ROTATION (R407). -/
def execRotation (s : State) : Host.Outcome State Fault Refusal :=
  onState s (fun s =>
    let c := s.core
    if c.st.cur = .ready ∧ (regv c 0x42000).getLsbD 2 ∧ s.bisq.rotAt + rotPeriod c ≤ now c then
      rotateNext { s with bisq := { s.bisq with rotAt := now c } }
    else s)

/-- MIGRATION_COPY_DONE (R408). -/
def execMigrationCopyDone (s : State) : Host.Outcome State Fault Refusal := onState s copyDone

/-- CUTOVER_CLOSE (R408). -/
def execCutoverClose (s : State) : Host.Outcome State Fault Refusal := onState s closeWindow

/-- SPARE_TEST_DONE (R408). -/
def execSpareTestDone (ok : Bool) (s : State) : Host.Outcome State Fault Refusal := onState s (fun s => spareTested s ok)

end Sys2Proof.Machine
end

