-- ==== Sys2Proof/Machine/Scrub.lean ====
section
/-! DEFINITION. Fettler's scrub, Bisque's borrowed ways and link tests, the leaking buckets (R154, R362, R403 to R406). -/

namespace Sys2Proof.Machine

/-! ### Scrubbing (R154, R398, R399, R403, R404). -/

/-- The logical slices that a physical slice bears. -/
def bornBy (c : Core) (ph : Nat) : List Nat := (List.range 32).filter (fun s => physOf c s == ph)

/-- The data of every location of a line-cache set is checked. -/
def scrubData (c : Core) (ph cs : Nat) : Core :=
  (List.range 16).foldl (fun c w =>
    let l := lcRd c ph cs w
    if !l.dbad then c
    else if l.use == .mirror then lcMirDataFix c (sliceOf c l.line) cs w
    else lcDataFix c (sliceOf c l.line) l.line) c

/-- The tag of every location of a line-cache set is checked. -/
def scrubTags (c : Core) (ph cs : Nat) : Core :=
  (List.range 16).foldl (fun c w =>
    let l := lcRd c ph cs w
    if !l.tbad then c
    else if l.use == .mirror then lcMirTagFix c (sliceOf c l.line) cs w
    else lcTagFix c (sliceOf c l.line) cs w) c

/-- Both copies of a filter set are read and compared, way by way, but for busy lines (R154). -/
def scrubFilter (c : Core) (s si : Nat) : Core :=
  let c := (setGuard c s (si * 64)).2
  if copyPending c s si || oneCopy c s || setHeld c s si then c
  else
    let own := c.dom.inst
    let idle := (List.range 16).filter (fun w =>
      !lineBusy c (eLine c si (sfRd c s si w).bits) && !lineBusy c (eLine c si (sfRdP c s si w).bits))
    let differ := idle.filter (fun w => sfWordOk own (sfRdP c s si w) && (sfRd c s si w).bits != (sfRdP c s si w).bits)
    let bad := idle.filter (fun w => !sfWordOk own (sfRdP c s si w))
    let c := bad.foldl (fun c w =>
      let y := flipWord c 2 7 (sfRd c s si w)
      let c := { y.2 with arr := { y.2.arr with sfPart := mput y.2.arr.sfPart (sfKey s si w) y.1 } }
      let pp := physOf c (partnerOf s)
      sfFailed (arrayError c { cat := 2, kind := 1, unit := 33 + pp, way := w, set := si, addr := some (wayAddr c s si w) }) (2 * pp + 1) s si w) c
    loseWays (if bad = [] then c else event c 0x302 [1, wd s]) s si differ

/-- A scrub may act on a set now: no filter-copy write for it is outstanding, no line that it has to repair is busy, and an internal entry is free
for its line actions (R77, R81, R154). -/
def scrubReady (c : Core) (cat unit index : Nat) : Bool :=
  if cat = 0 ∨ cat = 1 then
    let bad := (List.range 16).filter (fun w => if cat = 0 then (lcRd c unit index w).dbad else (lcRd c unit index w).tbad)
    bad == [] || ((trkFree c (sliceAt c unit) .internal).isSome && bad.all (fun w => !lineBusy c (lcRd c unit index w).line))
  else if cat = 2 then (bornBy c unit).all (fun s => !copyPending c s index && !copyPending c (partnerOf s) index)
  else true

/-- The set is still being recovered, so its copies have not been compared (R153, R154). -/
def scrubStays (c : Core) (cat unit index : Nat) : Bool :=
  cat == 2 && (bornBy c unit).any (fun s => setHeld c s index || setHeld c (partnerOf s) index)

/-- Everything at one position of Fettler's pass (R403). -/
def scrubAt (c : Core) (cat unit index : Nat) : Core :=
  if cat = 0 then scrubData c unit index
  else if cat = 1 then scrubTags c unit index
  else if cat = 2 then
    (bornBy c unit).foldl (fun c s => scrubFilter (scrubFilter c s index) (partnerOf s) index) c
  else if cat = 3 then pfCheck c (index / 16384 + 4 * (index % 16384))
  else if cat = 4 ∧ unit = 33 then pfNruFix c (index / 16384) (index % 16384)
  else if cat = 4 then
    let c := if index < 2048 then nruFix c false (lcNruKey unit index) (33 + unit) index else c
    (bornBy c unit).foldl (fun c s => nruFix c true (sfNruKey s index) (33 + unit) index) c
  else if cat = 7 then
    (bornBy c unit).foldl (fun c s =>
      match mfind? c.arr.mon (s * 12 + index) with
      | some m => if m.bad then
          arrayError { c with arr := { c.arr with mon := mdel c.arr.mon (s * 12 + index) } } { cat := 7, kind := 3, unit := 33 + unit }
        else c
      | none => c) c
  else c

/-- The arrays of a pass in turn: category, units, indexes (R403). -/
def scrubPlan : List (Nat × Nat × Nat) :=
  [(0, 33, 2048), (1, 33, 2048), (2, 33, 4096), (3, 1, 65536), (4, 34, 4096), (7, 33, 12), (8, 1, 65536), (9, 1, 4)]

/-- Indexes of a unit: unit 33 of category 4 stands for the gateways' proxy sets. -/
def scrubCount (cat unit count : Nat) : Nat := if cat = 4 ∧ unit = 33 then 65536 else count

/-- The position after one; none where the pass ends. -/
def scrubStep (cat unit index : Nat) : Option (Nat × Nat × Nat) :=
  match scrubPlan.find? (fun p => p.1 == cat) with
  | none => none
  | some p =>
    if index + 1 < scrubCount cat unit p.2.2 then some (cat, unit, index + 1)
    else if unit + 1 < p.2.1 then some (cat, unit + 1, 0)
    else (scrubPlan.find? (fun q => cat < q.1)).map (fun q => (q.1, 0, 0))

/-- Errors counted so far, over every category. -/
def errorsSeen (c : Core) : Nat := (List.range 14).foldl (fun n k => n + ctrv c (0x40100 + 8 * k)) 0

/-- Errors that a scrub finds are counted in FETTLER_FOUND (R404). -/
def noteFound (old c : Core) : Core := ctrAdd c 0x4100C 32 ((errorsSeen c + 14 * 2 ^ 48 - errorsSeen old) % 2 ^ 48)

/-- PASS in ticks (R404). -/
def passPeriod (c : Core) : Nat :=
  let v := fld (regv c 0x41000) 9 1
  (if v = 0 then 1 else v) * 2 ^ 24

/-- Processor p's memory is checked: a fault in it restarts the processor (R18, R398, R403). -/
def scrubMem (s : State) (p : Nat) : State :=
  if p = 3 then (if s.sag.lpMem.bad then lpRestart s else s)
  else if (mget s.ctl.mem p {}).bad then procDown s p else s

/-- A set that an error has made urgent is scrubbed in every copy of the pair (R404). -/
def scrubPair (c : Core) (cat unit _set : Nat) : List Nat :=
  if cat = 3 then [] else (unit :: (bornBy c unit).map (fun sl => physOf c (partnerOf sl))).eraseDups

/-- Fettler reads and checks its next location: the sets that an error has made urgent first, in every copy of the pair; it waits where it may not
act yet (R403, R404). -/
def fettler (s : State) : State :=
  let c := s.core
  if !bisqueRuns c then s
  else match c.urgent with
    | (cat, unit, set) :: rest =>
      let c1 := { c with urgent := rest }
      let pair := scrubPair c cat unit set
      if !pair.all (fun ph => scrubReady c cat ph set) then s
      else if cat = 3 then { s with core := carry (noteFound c1 (scrubAt c1 3 0 (unit * 16384 + set))) }
      else
        let c2 := pair.foldl (fun c ph => scrubAt c cat ph set) c1
        let again := if pair.any (fun ph => scrubStays c2 cat ph set) && !c2.urgent.contains (cat, unit, set)
          then [(cat, unit, set)] else []
        { s with core := carry (noteFound c1 { c2 with urgent := c2.urgent ++ again }) }
    | [] =>
      if !(regv c 0x41000).getLsbD 0 then s
      else
        let f := s.fet
        let late := decide (f.passAt + passPeriod c < now c)
        let c := if late && !f.overdue then hwSet c 0x41004 16 else c
        let found := if scrubReady c f.cat f.unit f.index then scrubAt c f.cat f.unit f.index else c
        let stay := !scrubReady c f.cat f.unit f.index || scrubStays found f.cat f.unit f.index
        let s1 := { s with core := found }
        let s2 := if f.cat = 8 ∧ ramBad s (4 * f.index) 4 then ramError s1 else if f.cat = 9 then scrubMem s1 f.index else s1
        let c := noteFound c s2.core
        if stay then { s2 with core := carry c, fet := { f with overdue := f.overdue || late } }
        else match scrubStep f.cat f.unit f.index with
        | some (k, u, i) => { s2 with core := carry c, fet := { f with cat := k, unit := u, index := i, overdue := f.overdue || late } }
        | none => { s2 with core := carry (ctrAdd c 0x41004 16 1), fet := { cat := 0, unit := 0, index := 0, passAt := now c, overdue := false } }

/-! ### Borrowed ways (R405). -/

/-- A physical slice is in service, or is the tested spare (R405). -/
def inService (s : State) (n : Nat) : Bool := !s.core.out.contains n && !(s.bisq.testing && s.bisq.spare == some n)

/-- The next physical slice in service after the present one (R405). -/
def nextInService (s : State) : Nat :=
  (((List.range 33).map (fun i => (s.bisq.phys + 1 + i) % 33)).find? (inService s)).getD s.bisq.phys

/-- Bank and way in order, then the next physical slice in service (R405). -/
def borrowStep (s : State) : State :=
  let b := s.bisq
  if b.way + 1 < 16 then { s with bisq := { b with way := b.way + 1 } }
  else if b.bank + 1 < 8 then { s with bisq := { b with way := 0, bank := b.bank + 1 } }
  else
    { s with bisq := { b with way := 0, bank := 0, phys := nextInService s } }

/-- One location of the borrowed way: invalidated or moved first, and skipped where that is not possible, where its line is busy or where the set
would keep too few free locations (R81, R405, R489). -/
def borrowLoc (ph w : Nat) (x : Core × List (Nat × Nat × Nat)) (cs : Nat) : Core × List (Nat × Nat × Nat) :=
  let c := x.1
  let l := lcRd c ph cs w
  if !lcUsable c ph cs w || lcBusy c ph cs w || l.use == .borrowed || c.arr.leaving.contains (ph, cs, w) then x
  else if l.use != .invalid && lineBusy c l.line then x
  else
    let c := if l.use == .invalid then c else if l.use == .clean then lcFree c ph cs w else lcMove c ph cs w
    let c' := lcRaw c ph cs w { use := .borrowed }
    if (lcRd c ph cs w).use == .invalid && lcKeeps c' (sliceAt c ph) cs then (c', x.2 ++ [(ph, cs, w)])
    else if l.use == .clean then x
    else (c, x.2)

/-- The position at which Bisque borrows next: it passes over a physical slice that is not in service (R405). -/
def borrowAtNext (s : State) : Bisque :=
  if inService s s.bisq.phys then s.bisq else { s.bisq with phys := nextInService s, bank := 0, way := 0 }

/-- Bisque borrows one way of one bank, once the last test has ended and an internal entry is free for its line actions (R77, R405). -/
def borrow (s : State) : State :=
  let b := borrowAtNext s
  let c := s.core
  if !bisqueRuns c || !(regv c 0x42000).getLsbD 0 || b.borrowed != [] || decide (now c < b.borrowAt + 2 ^ 16) then s
  else if (trkFree c (sliceAt c b.phys) .internal).isNone then s
  else
    let r := ((List.range 256).map (fun i => 8 * i + b.bank)).foldl (borrowLoc b.phys b.way) (c, [])
    borrowStep { s with core := r.1, bisq := { b with borrowed := r.2, borrowAt := now c } }

/-- The spare into which a slice migrates fails a march test: the migration is abandoned, and it goes out of service (R410). -/
def migrationFails (s : State) (pb : Nat) : State :=
  let s := abandonMigr s
  { s with bisq := { s.bisq with spare := none, testing := false }
           core := { s.core with out := s.core.out ++ [pb], role := mput s.core.role 32 .recovering } }

/-- The march test over the borrowed way ends: a location that fails is Disabled at once, the others return as Invalid (R405), and a failure in
the spare that a slice migrates into ends that migration (R410). `failed` lists the sets of failing locations. -/
def marchDone (s : State) (failed : List Nat) : State :=
  let c := s.bisq.borrowed.foldl (fun c k =>
    let c := if (lcRd c k.1 k.2.1 k.2.2).use == .borrowed then lcFree c k.1 k.2.1 k.2.2 else c
    if failed.contains k.2.1 ∧ !lcDisabled c k.1 k.2.1 k.2.2 then lcDisable (ctrSat c 0x4200B 8 1) k.1 k.2.1 k.2.2 else c) s.core
  let hit := fun (pb : Nat) => s.bisq.borrowed.any (fun k => k.1 == pb && failed.contains k.2.1)
  let t := { s with core := carry c, bisq := { s.bisq with borrowed := [] } }
  match s.bisq.migr with
  | some (_, _, pb) => if hit pb then migrationFails t pb else t
  | none => t

/-! ### Link tests and buckets (R332, R362, R406). -/

/-- A test flit crosses one direction of a link, at most once every 2^10 ticks; the fourth failure in a row declares the link failed. -/
def linkTest (s : State) (l : Nat) (dir ok : Bool) : State :=
  let c := s.core
  let k := 2 * l + b2n dir
  if !bisqueRuns c || !(regv c 0x42000).getLsbD 1 || c.fabric.links.contains l || decide (now c < mget c.fabric.testAt k 0) then s
  else
    let n := if ok then 0 else mget c.fabric.testFails k 0 + 1
    let c := { c with fabric := { c.fabric with testAt := mput c.fabric.testAt k (now c + 2 ^ 10), testFails := mput c.fabric.testFails k n } }
    let c := if ok then c else arrayError c { cat := 6, kind := 0 }
    if 4 ≤ n then fabricLinkDown { s with core := c } l else { s with core := c }

/-- LEAK, values below 16 acting as 16 (R364). -/
def leakPeriod (c : Core) : Nat := 2 ^ max 16 (fld (regv c 0x40000) 4 0)

/-- Every bucket level above 0 falls by 1 (R362). -/
def leak (c : Core) : Core :=
  if now c < c.leakAt + leakPeriod c then c
  else { c with leakAt := now c, bkt := c.bkt.map (fun x => (x.1, x.2 - 1)) }

/-! ### The commands. -/

/-- FETTLER_SCRUB (R403). -/
def execFettlerScrub (s : State) : Host.Outcome State Fault Refusal := onState s fettler

/-- BISQUE_BORROW (R405). -/
def execBisqueBorrow (s : State) : Host.Outcome State Fault Refusal := onState s borrow

/-- MARCH_TEST_DONE (R405). -/
def execMarchTestDone (failed : List Nat) (s : State) : Host.Outcome State Fault Refusal := onState s (fun s => marchDone s failed)

/-- LINK_TEST_FLIT (R406). -/
def execLinkTestFlit (link : Fin 112) (dir ok : Bool) (s : State) : Host.Outcome State Fault Refusal :=
  onState s (fun s => linkTest s link.val dir ok)

/-- BUCKET_LEAK (R362). -/
def execBucketLeak (s : State) : Host.Outcome State Fault Refusal := onCore s leak

end Sys2Proof.Machine
end

