-- ==== Sys2Proof/Machine/Policy.lean ====
section
/-! DEFINITION. The Cones, the voltage loop and CP's evaluation of the policies (R358, R397, R419 to R422). -/

namespace Sys2Proof.Machine

/-! ### Readings (R419, R422). -/

/-- Kind of monitor m: slices, fabric quadrants, and each other block of its own (R358). -/
def coneKind (m : Nat) : Nat := if m < 33 then 0 else if m < 37 then 1 else m

/-- A 16-bit reading as a signed number. -/
def signed16 (x : BitVec 16) : Int := x.toInt

/-- MARGIN of a SPEED reading: SPEED / SPEED_TGT - 1, in 1/1,024 (R419). -/
def marginOf (m : Nat) (speed : Nat) : Int :=
  if Config.speedTgt m = 0 then Config.marginOfZero m else ((speed * 1024 / Config.speedTgt m : Nat) : Int) - 1024

/-- Monitors in use that have reported. -/
def conesIn (v : Volt) : List Nat := (List.range 41).filter (fun m => !v.excluded.contains m && (mfind? v.speed m).isSome)

/-- SPEED as reported. -/
def rawSpeed (v : Volt) (m : Nat) : Nat := (mget v.speed m 0).toNat

/-- The least of a list. -/
def leastOf : List Int → Option Int
  | [] => none
  | a :: t => match leastOf t with
    | some b => some (if a ≤ b then a else b)
    | none => some a

/-- The SPEED that counts for a block: its Cone's, or for an excluded Cone the lowest of the others of its kind less 1/16 (R422). -/
def speedOf (v : Volt) (m : Nat) : Option Nat :=
  if v.excluded.contains m then
    (leastOf (((conesIn v).filter (fun k => coneKind k == coneKind m)).map (fun k => (rawSpeed v k : Int)))).map
      (fun (x : Int) => x.toNat * 15 / 16)
  else (mfind? v.speed m).map (fun x => x.toNat)

/-- The MARGIN that counts for a block (R422). -/
def marginIn (v : Volt) (m : Nat) : Option Int :=
  if v.excluded.contains m then
    (leastOf (((conesIn v).filter (fun k => coneKind k == coneKind m)).map (fun k => marginOf k (rawSpeed v k)))).map
      (fun (x : Int) => x - 64)
  else (mfind? v.speed m).map (fun x => marginOf m x.toNat)

/-- The mesh neighbours of a slice's Cone that are in use. -/
def neighbours (v : Volt) (m : Nat) : List Nat :=
  if m < 33 then (conesIn v).filter (fun k => decide (k < 33) && adjacent k m) else []

/-- A Cone reads wrongly: TEMP more than 20 °C from the mean of its neighbours, or SPEED outside its fused range (R422). -/
def coneWrong (v : Volt) (m : Nat) : Bool :=
  let ns := neighbours v m
  let sum := ns.foldl (fun (a : Int) k => a + signed16 (mget v.temp k 0)) 0
  let d := signed16 (mget v.temp m 0) * (ns.length : Int) - sum
  let hot := ns != [] && (decide ((80 * ns.length : Nat) < d) || decide (d < -((80 * ns.length : Nat) : Int)))
  hot || decide (rawSpeed v m < Config.speedLo m) || decide (Config.speedHi m < rawSpeed v m)

/-- Some block's SPEED is below a multiple of its SPEED_MIN. -/
def anyBelow (v : Volt) (num den : Nat) : Bool :=
  (List.range 41).any (fun m => match speedOf v m with
    | some x => decide (x * den < Config.speedMin m * num)
    | none => false)

/-- The Cones report (R419, R422, R487): wrong ones are excluded, a hot one latches OVERTEMP, and VOLTAGE latches once SPEED has stayed
below SPEED_MIN with CODE at 120 for longer than the settling time of 40 ticks (R420). -/
def conesReport (c : Core) (l : List (Nat × BitVec 16 × BitVec 16)) : Core :=
  let v := l.foldl (fun (v : Volt) x => { v with speed := mput v.speed x.1 x.2.1, temp := mput v.temp x.1 x.2.2 }) c.volt
  let wrong := (l.map (fun x => x.1)).filter (fun m => !v.excluded.contains m && coneWrong v m)
  let v := { v with excluded := v.excluded ++ wrong }
  let low := anyBelow v 1 1 && v.code == 120
  let v := { v with floorAt := if anyBelow v 65 64 then v.floorAt else 0
                    lowAt := if low then (if v.lowAt = 0 then now c + 1 else v.lowAt) else 0 }
  let c := wrong.foldl (fun c m => event c 0x306 [wd m]) { c with volt := v }
  let c := if l.any (fun x => !v.excluded.contains x.1 && decide (420 < signed16 x.2.2)) && !flagv c 0x20100 12 then alarm c 12 else c
  if low && decide (now c + 1 = v.lowAt + 41) then alarm c 11 else c

/-! ### The code (R358, R420). -/

/-- VMAX, at most 120. -/
def vMax (c : Core) : Nat := min (fld (regv c 0x280) 23 16) 120
/-- VMIN; one above VMAX acts as VMAX. -/
def vMin (c : Core) : Nat := min (fld (regv c 0x280) 15 8) (vMax c)

/-- CODE by the formula of R358; in the states where R243 and R468 fix it, 60. -/
def codeNow (c : Core) : Nat :=
  if c.volt.held60 then 60 else max (min c.volt.floor 120) (min (vMax c) (max (vMin c) c.volt.wanted))

/-- CODE follows. -/
def codeSet (c : Core) : Core := { c with volt := { c.volt with code := codeNow c } }

/-- The floor rises in hardware, again after each 64 ticks while the condition lasts (R420). -/
def floorUp (c : Core) : Core :=
  let v := c.volt
  if !anyBelow v 65 64 || (v.floorAt != 0 && decide (now c + 1 < v.floorAt + 64)) then c
  else
    let f := min (v.code + 4) 120
    codeSet { c with volt := { v with floor := f, floorAt := now c + 1 } }

/-! ### CP's evaluation (R397, R421). -/

/-- The voltage policy of an evaluation (R420, R421). -/
def evalVolt (c : Core) : Core :=
  let v := c.volt
  let fine := conesIn v != [] && !anyBelow v 17 16
  let least := leastOf ((List.range 37).filterMap (fun m => marginIn v m))
  let wanted := match least with
    | some m => if m < 32 then min (v.wanted + 2) 120 else if 96 < m then v.wanted - 1 else v.wanted
    | none => v.wanted
  let c := codeSet { c with volt := { v with floor := if fine then v.floor - 1 else v.floor, wanted := wanted } }
  match least with
  | some m => if m < 0 ∧ vMax c ≤ c.volt.code then event c 0x307 [BitVec.ofInt 32 m, wd c.volt.code] else c
  | none => c

/-- CP's choices of the other policies: free values within the bounds (R397). -/
def evalRest (c : Core) : Core :=
  let k := takeFree c
  let b := c.pol.bounds
  let pick := fun (i lo : Nat) => clamp (b.getD lo 0) (b.getD (lo + 1) 0) (Config.policyChoice k.1 i)
  let c := { k.2 with pol := { c.pol with
    b := pick 0 0, exactMax := pick 1 2, costMax := pick 2 4, chosen := some k.1, evalBounds := b } }
  drainAll c

/-- The states in which CP evaluates: those with the data path in service. -/
def policyRuns (c : Core) : Bool :=
  c.st.cur == .waitBackend || c.st.cur == .ready || c.st.cur == .quiesced || c.st.cur == .degraded || c.st.cur == .service

/-- CP evaluates every policy, every 2^16 ticks (R397). -/
def evaluate (s : State) : State :=
  let c := s.core
  if !policyRuns c || s.ctl.down.contains 0 || decide (now c < c.evalAt + 2 ^ 16) then s
  else { s with core := carry (evalRest (evalVolt { c with evalAt := now c })) }

/-! ### The commands. -/

/-- POLICY_EVALUATION (R397). -/
def execPolicyEvaluation (s : State) : Host.Outcome State Fault Refusal := onState s evaluate

/-- VOLTAGE_FLOOR (R420). -/
def execVoltageFloor (s : State) : Host.Outcome State Fault Refusal := onCore s floorUp

end Sys2Proof.Machine
end

