-- ==== Sys2Proof/Machine/Saggar.lean ====
section
/-! DEFINITION. Saggar: the meter inlet, spread counters, readouts, the seal, presence and key slots, domain readouts (R437 to R461). -/

namespace Sys2Proof.Machine

/-- Saggar works while VDDS is in range (R437, R444). -/
def onSag (s : State) (f : State → State) : Host.Outcome State Fault Refusal := if s.pwr.vddsUp then .next (f s) else .next s

/-- Change Saggar. -/
def withSag (s : State) (f : Saggar → Saggar) : State := { s with sag := f s.sag }

/-! ### Meters and spread counters (R439 to R442). -/

/-- Entry of meter m, quantity q. -/
def meterOf (g : Saggar) (m q : Nat) : Meter := mget g.meters (m * 5 + q) {}

/-- Change an entry. -/
def meterMod (g : Saggar) (m q : Nat) (f : Meter → Meter) : Saggar := { g with meters := mmod g.meters (m * 5 + q) {} f }

/-- Quantum of quantity q (R440). -/
def quantum (q : Nat) : Nat := if q = 2 then 1 else if q = 3 then 60 else 2 ^ 40

/-- Cells of a unary page (R441). -/
def pageCells : Nat := 504

/-- The oldest increment reaches the inlet: it is added to its meter and to the total, or dropped with its parity bad (R439, R440). -/
def inlet (s : State) (ok : Bool) : State :=
  match s.core.fab.meters with
  | [] => s
  | m :: rest =>
    let s := withCore s (fun c => { c with fab := { c.fab with meters := rest } })
    withSag s (fun g => if ok then meterAdd (meterAdd g m.meter m.q m.amount) 16 m.q m.amount
      else { meterMod g 16 m.q (fun x => { x with underQ := min (x.underQ + 1) 0xFFFFFFFF }) with inletFault := true })

/-- LP moves a whole quantum from an accumulator into its spread counter, and folds a full page (R442). -/
def transferQ (g : Saggar) (m q : Nat) : Saggar :=
  let x := meterOf g m q
  if x.acc < quantum q then g
  else
    let x := { x with acc := x.acc - quantum q, cells := x.cells + 1 }
    meterMod g m q (fun _ => if x.cells = pageCells then { x with base := x.base + pageCells, cells := 0, torn := 0 } else x)

/-- Power fails while LP writes the cell that moves a quantum of entry k: the cell is torn. It counts as incremented, adds one unit to OVER
of the entry and one to TORN (R443). Without a whole quantum LP writes no cell. -/
def tearCell (s : State) (k : Nat) : State :=
  let x := mget s.sag.meters k {}
  if x.acc < quantum (k % 5) || !s.sag.lpRun || !s.pwr.vddsUp then s
  else withSag s (fun g => meterMod (transferQ (meterMod g (k / 5) (k % 5) (fun x => { x with torn := x.torn + 1 })) (k / 5) (k % 5))
    (k / 5) (k % 5) (fun x => { x with overQ := min (x.overQ + 1) 0xFFFFFFFF }))

/-- A second with PWR_OK asserted is counted: in the total, and in each meter that a committed entry other than HOLE names (R440). -/
def secondOn (s : State) : State :=
  if now s.core < (s.pwr.seconds + 1) * 100000000 ∨ s.core.st.cur = .off then s
  else
    let named := (List.range 16).filter (fun m =>
      (List.range 16).any (fun r => rgnType (rgnCur s.core r) != 0 && rgnMeter (rgnCur s.core r) == m))
    let s := { s with pwr := { s.pwr with seconds := s.pwr.seconds + 1 } }
    if s.pwr.vddsUp then withSag s (fun g => (named ++ [16]).foldl (fun g m => meterAdd g m 3 1) g) else s

/-- A flush is counted in the total, and in each meter with a line that it wrote (R440). -/
def flushMeter (s : State) : State :=
  withSag s (fun g => (s.pers.meters ++ [16]).foldl (fun g m => meterAdd g m 2 1) g)

/-! ### Readouts (R446, R447). -/

/-- NDR_VERSION (R354). -/
def ndrVersion : Nat := 0x00020100

/-- VALUE of an entry (R446). -/
def meterValue (g : Saggar) (m q : Nat) : Nat :=
  let x := meterOf g m q
  (x.base + x.cells) * quantum q + x.acc

/-- Bytes 0 to 1,487 of a readout (R446). -/
def readoutBody (s : State) (nonce : BitVec 256) (collected : Bool) (rseq : Nat) : List Byte :=
  let g := s.sag
  let open_ := g.signKey.isNone
  let flags := b2n open_ + 2 * b2n g.lpRestarted + 4 * b2n g.inletFault + 8 * b2n g.nportFault + 16 * b2n collected + 32 * b2n open_
  let torn := (List.range 85).foldl (fun n k => n + (mget g.meters k {}).torn) 0
  let entries := (List.range 85).flatMap (fun k =>
    leBytes (meterValue g (k / 5) (k % 5)) 8 ++ leBytes (mget g.meters k {}).overQ 4 ++ leBytes (mget g.meters k {}).underQ 4)
  leBytes 0x47474153 4 ++ leBytes 1 2 ++ leBytes flags 2 ++ leBytes uidShown.toNat 8 ++ leBytes rseq 8 ++ leBytes s.core.dom.time.toNat 8
    ++ leBytes nonce.toNat 32 ++ leBytes g.lpVer.toNat 4 ++ leBytes torn 4 ++ leBytes (Config.lpHash g.lpVer).toNat 48
    ++ leBytes ndrVersion 4 ++ leBytes 85 4 ++ entries

/-- LP makes a readout: signed while the signing key exists, and then with the next RSEQ (R447). Answers its 1,552 bytes. -/
def readout (s : State) (nonce : BitVec 256) (collected : Bool) : List Byte × State :=
  let done := fun (g : Saggar) => { g with lpRestarted := false, inletFault := false }
  match s.sag.signKey with
  | some k =>
    let n := s.sag.rseq + 1
    let body := readoutBody s nonce collected n
    (body ++ leBytes (Config.signReadout k body).toNat 64, withSag s (fun g => { done g with rseq := n }))
  | none => (readoutBody s nonce collected s.sag.rseq ++ leBytes 0 64, withSag s done)

/-! ### Domain readouts (R449). -/

/-- LEDGER is received: a member answers a request with a readout; the Chanter keeps a member's latest (R449). -/
def ledgerIn (s : State) : State :=
  match takeMgt s.core 0xB with
  | none => s
  | some (m, c) =>
    let s := { s with core := c }
    if !s.sag.lpRun || !s.pwr.vddsUp then s
    else if mgtNum m 8 1 = 0 then
      if m.src ≠ s.core.dom.chanter then s
      else
        let r := readout s (BitVec.ofNat 256 (mgtNum m 16 32)) true
        withCore r.2 (fun c => mgtSend c 0xB m.src (leBytes 1 4 ++ leBytes (mgtNum m 12 4) 4 ++ r.1))
    else if s.core.dom.role ∧ mgtNum m 12 4 = s.sag.cycle then
      withSag s (fun g => { g with collected := mput g.collected m.src (((mgtBytes m).drop 16).take 1552) })
    else s

/-- The Chanter's LP starts a cycle every 2^32 ticks, a new Chanter at once (R318, R449). -/
def ledgerStart (s : State) : State :=
  if !s.core.dom.role then withSag s (fun g => { g with cycleRole := false })
  else if !s.sag.lpRun || !s.pwr.vddsUp || (s.sag.cycleRole && decide (now s.core < s.sag.cycleAt + 2 ^ 32)) then s
  else
    let k := takeFree s.core
    let nonce := Config.cycleNonce k.1
    let n := (s.sag.cycle + 1) % 2 ^ 32
    let s := { s with core := k.2, sag := { s.sag with cycle := n, cycleNonce := nonce, cycleAt := now s.core, cycleRole := true } }
    let r := readout s nonce true
    let s := withSag r.2 (fun g => { g with collected := mput g.collected s.core.dom.inst r.1 })
    withCore s (fun c => mgtAll c 0xB (leBytes 0 4 ++ leBytes n 4 ++ leBytes nonce.toNat 32))

/-! ### Seal, presence, power (R444, R450 to R456). -/

/-- A new debug nonce (R461). -/
def newNonce (s : State) : State :=
  let k := takeFree s.core
  { s with core := k.2, sag := { s.sag with nonce := Config.debugNonce k.1 } }

/-- The seal opens: the signing key is gone, the seal record reads UNSEALED with a cause (R451). -/
def sealOpen (s : State) (cause : Nat) : State :=
  withSag s (fun g => { g with signKey := none, sealed := false, cause := cause })

/-- A sample of the loop: two mismatches in a row open the seal (R450). -/
def sealSample (s : State) (back : Bool) : State :=
  let g := s.sag
  let bad := if back = g.lfsr.getLsbD 0 then 0 else min (g.bad + 1) 2
  let s := withSag s (fun g => { g with bad := bad, loopOpen := decide (2 ≤ bad), lfsr := Config.sealNext g.lfsr })
  if bad = 2 ∧ (g.sealed ∨ g.signKey.isSome = true) then sealOpen s 1 else s

/-- A key slot is replaced in its record and in the B-port engines (R277, R456). -/
def slotSet (s : State) (k : Nat) (x : KeySlot) : State :=
  let s := withSag s (fun g => { g with keyRecs := mput g.keyRecs k x })
  withCore s (fun c => keyReplace c k x)

/-- Slots that hold a key, as their records say. -/
def keyedSlots (g : Saggar) : List Nat :=
  (List.range 16).filter (fun k => match mget g.keyRecs k .empty with
    | .key _ => true
    | _ => false)

/-- Steps 1 and 2 of R454: keyed slots become EMPTY, debug is relocked, and its nonce discarded. -/
def eraseKeys (s : State) : State :=
  let s := (keyedSlots s.sag).foldl (fun s k => slotSet s k .empty) s
  newNonce (withSag s (fun g => { g with debugOpen := 0 }))

/-- Erasure and relock have finished: ERASING falls and PRESENT is set while SERVICE_N is asserted (R454). -/
def presence (s : State) : State :=
  if !s.sag.erasing then s
  else withSag s (fun g => { g with erasing := false, present := s.pwr.service })

/-- VDDS leaves its range: the signing key, the accumulator residues and the rest of Saggar's state are gone; its store is not (R444,
R451). -/
def vddsDown (s : State) : State :=
  let g := s.sag
  let kept : Saggar := {
    meters := g.meters.map (fun x => (x.1, { x.2 with acc := 0 })), rseq := g.rseq, cause := 2, reseals := g.reseals, keyRecs := g.keyRecs
    lpSlot := g.lpSlot, nonce := g.nonce }
  { s with sag := kept, pwr := { s.pwr with vddsUp := false } }

/-- No copy of a record of Saggar's store is valid (R445). Of a spread counter k < 85, and 85 for RSEQ: its VALUE counts as 0, and an entry's OVER
and UNDER are unbounded. Of key slot k - 86: it is EMPTY (R456). Of the seal (102): it counts as open. -/
def baseLost (g : Saggar) (k : Nat) : Saggar :=
  let g := { g with nportFault := true }
  if k = 102 then { g with reseals := Config.lostReseals g.reseals }
  else if 86 ≤ k then { g with keyRecs := mput g.keyRecs (k - 86) .empty }
  else if k = 85 then { g with rseq := g.rseq % pageCells }
  else meterMod g (k / 5) (k % 5) (fun x => { x with base := 0, overQ := 0xFFFFFFFF, underQ := 0xFFFFFFFF })

/-- VDDS comes up: the warning is over, UNDER rises by one in every entry, the seal record is UNSEALED, LP is loaded (R444, R451, R473).
`lost` names the records that have no valid copy (R445). -/
def vddsStart (s : State) (ok : Bool) (version : Word) (lost : List Nat) : State :=
  if s.pwr.vddsUp ∧ s.sag.lpRun = true then s
  else
    let s := { vddsDown s with pwr := { s.pwr with vddsUp := true, vddsWarn := false } }
    let s := withSag s (fun g => (List.range 85).foldl (fun g k =>
      meterMod g (k / 5) (k % 5) (fun x => { x with underQ := min (x.underQ + 1) 0xFFFFFFFF })) g)
    let m := memLoad s s.sag.lpSlot
    let s := if ok then { m.2 with sag := { m.2.sag with lpMem := m.1 } } else s
    newNonce (withSag s (fun g => lost.foldl baseLost { g with lpRun := ok, lpVer := if ok then version else 0 }))

/-! ### The commands. -/

/-- METER_INCREMENT (R439). -/
def execMeterIncrement (parityOk : Bool) (s : State) : Host.Outcome State Fault Refusal := onSag s (fun s => inlet s parityOk)

/-- QUANTUM_TRANSFER (R442): not while LP is down or a VDDS warning is taken (R478). -/
def execQuantumTransfer (meter : Fin 17) (q : Fin 5) (s : State) : Host.Outcome State Fault Refusal :=
  onSag s (fun s => if s.sag.lpRun && !s.pwr.vddsWarn then withSag s (fun g => transferQ g meter.val q.val) else s)

/-- POWER_ON_SECOND (R440). -/
def execPowerOnSecond (s : State) : Host.Outcome State Fault Refusal := onState s secondOn

/-- LEDGER (R449). -/
def execLedger (s : State) : Host.Outcome State Fault Refusal := onState s (fun s => if hpRuns s then ledgerIn s else s)

/-- LEDGER_CYCLE (R449). -/
def execLedgerCycle (s : State) : Host.Outcome State Fault Refusal := onState s (fun s => if hpRuns s then ledgerStart s else s)

/-- SEAL_SAMPLE (R450). -/
def execSealSample (back : Bool) (s : State) : Host.Outcome State Fault Refusal := onSag s (fun s => sealSample s back)

/-- PRESENCE_ESTABLISHED (R454). -/
def execPresenceEstablished (s : State) : Host.Outcome State Fault Refusal := onSag s presence

/-- VDDS_WARN (R478): LP starts no further program or erase of the store. -/
def execVddsWarn (s : State) : Host.Outcome State Fault Refusal := onSag s (fun s => { s with pwr := { s.pwr with vddsWarn := true } })

/-- VDDS_POWER_UP (R444). -/
def execVddsPowerUp (lpOk : Bool) (version : StoreFound) (s : State) : Host.Outcome State Fault Refusal :=
  .next (vddsStart s lpOk version.version (version.noCopy.map Fin.val))

end Sys2Proof.Machine
end

