-- ==== Sys2Proof/Machine/Mailbox.lean ====
section
/-! DEFINITION. Mailboxes, command packets and the life of a command: where a packet lies, the checks of R380, the relay to other
instances, replies, and the end of a command (R313, R365 to R368, R372, R377 to R383, R386). -/

namespace Sys2Proof.Machine

/-- Mailbox m. -/
def mbxGet (s : State) (m : Nat) : Mailbox := mget s.ctl.mbx m {}

/-- Change mailbox m. -/
def mbxMod (s : State) (m : Nat) (f : Mailbox → Mailbox) : State := withCtl s (fun t => { t with mbx := mmod t.mbx m {} f })

/-- CP runs (R18, R472). -/
def cpRuns (s : State) : Bool := s.ctl.up && !s.ctl.down.contains 0

/-! ### Where a packet lies (R368). -/

/-- The pointer names the Ware window. -/
def ptrWare (p : BitVec 64) : Bool := p.getLsbD 63

/-- Byte address of a pointer in its space. -/
def ptrAddr (p : BitVec 64) : Nat := p.toNat % 2 ^ 48

/-- The domain line of a local byte address. -/
def addrLine (c : Core) (a : Nat) : Nat := c.dom.inst * 2 ^ 42 + a / 64

/-- The n bytes at a local address lie wholly within the Ware window's present capacity. -/
def inWare (c : Core) (a n : Nat) : Bool :=
  decide (a + n ≤ 2 ^ 48) && (List.range (n / 64 + 2)).all (fun k =>
    let b := min (a + 64 * k) (a + n - 1)
    lineType c (addrLine c b) == 3 && wareIn c (addrLine c b))

/-- n bytes of a packet from byte off lie within its space. -/
def pktFits (s : State) (p : BitVec 64) (off n : Nat) : Bool :=
  if ptrWare p then inWare s.core (ptrAddr p + off) n else decide (ptrAddr p + off + n ≤ pramSize)

/-- A Ware location out of service (R187). -/
def wareDead (c : Core) (line : Nat) : Bool :=
  let l := wareLoc (wareOff c line)
  lcDisabled c (physOf c l.1) l.2.1 l.2.2

/-- CP reads n bytes of the Ware window; none where a line is poisoned (R101, R190). -/
def wareBytes : Nat → Core → Nat → List Byte → Option (List Byte) × Core
  | 0, c, _, acc => (some acc, c)
  | n + 1, c, line, acc =>
    let r := wareRead c (wareOff c line)
    if r.2.1 then (none, wareError r.2.2 line (wareOff c line))
    else if wareDead c line then (none, r.2.2)
    else wareBytes n r.2.2 (line + 1) (acc ++ (List.range 64).map (lineByte r.1))

/-- CP writes bytes into the Ware window. -/
def warePut (c : Core) (a : Nat) (bs : List Byte) : Core :=
  let first := addrLine c a
  let last := addrLine c (a + bs.length - 1)
  (List.range (last + 1 - first)).foldl (fun c k =>
    let line := first + k
    let base := (a / 64 + k) * 64
    let idx := (List.range 64).filter (fun i => decide (a ≤ base + i) && decide (base + i < a + bs.length))
    let be : BEn := BitVec.ofNat 64 (ofBits idx)
    let d := lineOf ((List.range 64).map (fun i => if idx.contains i then bs.getD (base + i - a) 0 else 0))
    if bs = [] ∨ wareDead c line ∨ lineType c line ≠ 3 ∨ wareIn c line = false then c else (wareWrite c (wareOff c line) be d false (be == beAll)).2) c

/-- CP reads n bytes of a packet from byte off; none on a parity error or poison (R380, R398). -/
def pktRead (s : State) (p : BitVec 64) (off n : Nat) : Option (List Byte) × State :=
  let a := ptrAddr p + off
  if n = 0 then (some [], s)
  else if ptrWare p then
    let r := wareBytes ((a + n - 1) / 64 + 1 - a / 64) s.core (addrLine s.core a) []
    (r.1.map (fun l => (l.drop (a % 64)).take n), { s with core := r.2 })
  else if ramBad s a n then (none, ramError s)
  else (some (memGetBytes s.pram a n), s)

/-- CP writes bytes into a packet. -/
def pktWrite (s : State) (p : BitVec 64) (off : Nat) (bs : List Byte) : State :=
  if ptrWare p then withCore s (fun c => warePut c (ptrAddr p + off) bs) else ramWrite s (ptrAddr p + off) bs

/-! ### Replies (R379). -/

/-- The first reply of a host bank goes into its mailbox once that is free. -/
def replyOut (s : State) (i : Nat) : State :=
  if (mbxGet s (8 + i)).full then s
  else match s.ctl.replies.find? (fun r => r.mb == 8 + i) with
    | none => s
    | some r =>
      let s := withCtl s (fun t => { t with replies := t.replies.erase r })
      let s := mbxMod s (8 + i) (fun _ => { lo := loW r.ptr.toNat, ptr := r.ptr, full := true, wpriv := true, wsec := true, writer := 10 })
      withCore s (fun c => ring c i 0)

/-- A reply pointer for a command of request mailbox m (R365). -/
def replyTo (s : State) (m : Nat) (p : BitVec 64) : State :=
  replyOut (withCtl s (fun t => { t with replies := t.replies ++ [{ mb := 8 + m / 2, ptr := p }] })) (m / 2)

/-! ### The end of a command (R377 to R379, R383). -/

/-- Status codes of R378. -/
def csOK : Nat := 0
/-- BUSY. -/
def csBusy : Nat := 1
/-- WRONG_STATE. -/
def csWrongState : Nat := 2
/-- BAD_PARAM. -/
def csBadParam : Nat := 3
/-- NEED_PRESENCE. -/
def csNeedPresence : Nat := 4
/-- DENIED. -/
def csDenied : Nat := 5
/-- MEDIA_EXHAUSTED. -/
def csExhausted : Nat := 6
/-- TIMEOUT. -/
def csTimeout : Nat := 7
/-- UNSUPPORTED. -/
def csUnsupported : Nat := 8
/-- INTERNAL. -/
def csInternal : Nat := 9

/-- A packet's result goes to its sender: reply bytes, DETAIL, REPLY_LEN, DONE_TICK, STATUS, then the pointer; or CMD_RSP for a relayed
command (R312, R379). -/
def answerCmd (s : State) (o : CmdFrom) (status detail : Nat) (reply : List Byte) : State :=
  match o with
  | .box m p =>
    let s := pktWrite s p 64 reply
    let s := pktWrite s p 18 (leBytes detail 2)
    let s := pktWrite s p 20 (leBytes reply.length 4)
    let s := pktWrite s p 24 (leBytes s.core.tick.toNat 8)
    replyTo (pktWrite s p 16 (leBytes status 2)) m p
  | .relay rtag i =>
    withCore s (fun c => mgtSend c 7 i (leBytes rtag 4 ++ leBytes status 2 ++ leBytes detail 2))

/-- A domain command ends once every named instance has a status (R383). -/
def domainEnd (s : State) (x : Cmd) : State :=
  if (List.range 16).all (fun i => !x.targets.getLsbD i || (mfind? x.stats i).isSome) then
    let s := withCtl s (fun t => { t with run := t.run.filter (fun y => y != x) })
    answerCmd s x.origin csOK 0 ((List.range 16).flatMap (fun i => leBytes (mget x.stats i 0xFFFF) 2))
  else s

/-- Change a running command. -/
def cmdPut (s : State) (x y : Cmd) : State := withCtl s (fun t => { t with run := t.run.map (fun z => if z = x then y else z) })

/-- The phase of a domain command whose local part has ended, or is not asked for. -/
def localDone : Nat := 99

/-- A command ends with a status; of a domain command, its local part ends (R379, R383). -/
def cmdEnd (s : State) (x : Cmd) (status detail : Nat) (reply : List Byte) : State :=
  if x.domain then
    let y := { x with phase := localDone, stats := mput x.stats s.core.dom.inst status }
    domainEnd (cmdPut s x y) y
  else answerCmd (withCtl s (fun t => { t with run := t.run.filter (fun y => y != x) })) x.origin status detail reply

/-- The REQ credits kept back at the C- and D-ports are returned (R385, R389). -/
def portCredits (c : Core) : Core :=
  if reqHeld c then c
  else
    let c := (List.range 16).foldl (fun c p =>
      let n := (cpGet c p).owed
      crdDrive (cpMod c p (fun y => { y with inCrd := earn y.inCrd 0 n, owed := 0 })) (epC p) 0 n) c
    (List.range 8).foldl (fun c d =>
      let n := (dpGet c d).owed
      crdDrive (dpMod c d (fun y => { y with inCrd := earn y.inCrd 0 n, owed := 0 })) (epD d) 0 n) c

/-- REQ credits flow again: those kept back are returned (R385, R389). -/
def reqOpen (c : Core) : Core :=
  (List.range 4).foldl (fun c n =>
    let k := (spGet c n).owed
    (List.range k).foldl (fun c _ => spIdle c n 0 0 1) (spMod c n (fun x => { x with owed := 0 }))) (portCredits { c with reqStop := false })

/-- What a command that ends early leaves: QUIESCE lets the credits flow again, a raising SET_WARE gives its ways back, DOM_BARRIER's arrival
is discarded (R315, R382, R385, R392). -/
def cmdUndo (s : State) (x : Cmd) : State :=
  if x.phase = localDone ∨ x.phase = 0 then s
  else if x.op = 0x10 then withCore s reqOpen
  else if x.op = 0x21 then withCore s (fun c => { c with arr := { c.arr with wgoal := none } })
  else if x.op = 0x30 then
    withCore s (fun c => domMod c (fun d => { d with barrier := none, arrived := d.arrived.filter (fun a => a.2 != d.inst) }))
  else s

/-- A command as a whole ends, whatever its targets have answered. -/
def cmdStop (s : State) (x : Cmd) (status detail : Nat) : State :=
  answerCmd (withCtl s (fun t => { t with run := t.run.filter (fun y => y != x) })) x.origin status detail []

/-- The state number that WRONG_STATE reports. -/
def stateNum (s : State) : Nat := s.core.st.cur.ctorIdx

/-! ### The command set (R386). -/

/-- A row of the opcode table: legal states, presence, PRIV and SECURE, runs in the background, and its parameter lengths. -/
structure CmdRow where
  op : Nat
  legal : List BState
  presence : Bool
  priv : Bool
  long : Bool
  lens : List Nat
  deriving DecidableEq, Repr

/-- Every state but OFF and INIT. -/
def allStates : List BState := [.waitBackend, .ready, .quiesced, .degraded, .service, .flush, .halt]
/-- W R Q D S. -/
def servingStates : List BState := [.waitBackend, .ready, .quiesced, .degraded, .service]

/-- The opcode table of R386, with the parameter lengths of R391 to R395 and R458. -/
def cmdTable : List CmdRow := [
  { op := 0x01, legal := allStates, presence := false, priv := false, long := false, lens := [0] },
  { op := 0x02, legal := allStates, presence := false, priv := false, long := false, lens := [0] },
  { op := 0x03, legal := servingStates, presence := false, priv := false, long := false, lens := [0] },
  { op := 0x10, legal := [.ready, .degraded], presence := false, priv := true, long := true, lens := [0] },
  { op := 0x11, legal := [.quiesced], presence := false, priv := true, long := false, lens := [0] },
  { op := 0x12, legal := [.quiesced], presence := true, priv := true, long := false, lens := [0] },
  { op := 0x13, legal := [.service], presence := false, priv := true, long := false, lens := [0] },
  { op := 0x14, legal := [.ready, .quiesced, .degraded, .service], presence := false, priv := true, long := true, lens := [0] },
  { op := 0x20, legal := servingStates, presence := false, priv := true, long := false, lens := [32] },
  { op := 0x21, legal := [.ready, .quiesced, .degraded], presence := false, priv := true, long := true, lens := [4] },
  { op := 0x22, legal := servingStates, presence := false, priv := true, long := false, lens := [32] },
  { op := 0x30, legal := [.ready, .quiesced, .degraded], presence := false, priv := true, long := true, lens := [4] },
  { op := 0x31, legal := [.ready, .quiesced, .degraded], presence := false, priv := true, long := false, lens := [4] },
  { op := 0x32, legal := [.ready, .quiesced, .degraded], presence := false, priv := true, long := true, lens := [4] },
  { op := 0x40, legal := [.service], presence := true, priv := true, long := true, lens := [16] },
  { op := 0x41, legal := [.service], presence := true, priv := true, long := false, lens := [4, 172] },
  { op := 0x42, legal := [.service], presence := true, priv := true, long := false, lens := [100] },
  { op := 0x43, legal := servingStates, presence := false, priv := true, long := false, lens := [0] },
  { op := 0x44, legal := [.service], presence := true, priv := true, long := true, lens := [4] },
  { op := 0x45, legal := [.service], presence := true, priv := true, long := false, lens := [192] },
  { op := 0x46, legal := servingStates, presence := false, priv := false, long := false, lens := [36] }]

/-- The row of an opcode. -/
def cmdRow (op : Nat) : Option CmdRow := cmdTable.find? (fun r => r.op == op)

/-- Number in a byte list. -/
def bnum (l : List Byte) (lo n : Nat) : Nat := leVal ((l.drop lo).take n)

/-- A pair of bounds is out of its range. -/
def badPair (l : List Byte) (i lo hi : Nat) : Bool :=
  decide (bnum l i 1 < lo) || decide (hi < bnum l i 1) || decide (hi < bnum l (i + 1) 1) || decide (bnum l (i + 1) 1 < bnum l i 1)

/-- Byte offset, among the parameters, of the first bad one (R391 to R395, R458). -/
def badParam (s : State) (op : Nat) (l : List Byte) : Option Nat :=
  if op = 0x20 then
    let pairs : List (Nat × Nat × Nat) := [(0, 0, 8), (2, 1, 3), (4, 1, 80)] ++ (List.range 10).map (fun k => (8 + 2 * k, 0, 255))
    let bad := (pairs.filter (fun p => badPair l p.1 p.2.1 p.2.2)).map (fun p => p.1)
    let zeros := [6, 7, 28, 29, 30, 31].filter (fun i => bnum l i 1 != 0)
    minBy (fun x => x) (bad ++ zeros)
  else if op = 0x21 then (if 8 < bnum l 0 4 then some 0 else none)
  else if op = 0x32 then (if 15 < bnum l 0 1 then some 0 else none)
  else if op = 0x40 then
    if 3 < bnum l 0 4 then some 0
    else if bnum l 4 8 % 64 ≠ 0 ∨ 2 ^ 48 ≤ bnum l 4 8 then some 4
    else if bnum l 12 4 < 257 ∨ 786688 < bnum l 12 4 then some 12
    else if !inWare s.core (bnum l 4 8) (bnum l 12 4) then some 4 else none
  else if op = 0x41 then
    if 15 < bnum l 0 1 then some 0 else if 2 < bnum l 1 1 then some 1
    else if bnum l 2 1 ≠ 0 then some 2 else if bnum l 3 1 ≠ 0 then some 3
    else if bnum l 1 1 = 0 ∧ l.length ≠ 172 then some 1 else none
  else if op = 0x42 then (if 8 ≤ bnum l 0 4 then some 0 else none)
  else if op = 0x44 then (if 2 ≤ bnum l 2 2 then some 2 else none)
  else if op = 0x46 then
    let i := bnum l 32 1
    if i = 0xFF then none
    else if s.core.dom.role ∧ i < 16 ∧ isMember s.core i = true then none else some 32
  else none

/-- Check 3: the role or rights that a command needs are missing (R383, R394, R395). -/
def lacksRole (s : State) (op : Nat) (dom : Bool) (l : List Byte) : Bool :=
  let c := s.core
  (dom && !c.dom.role) || (op == 0x31 && !c.dom.role) || (op == 0x32 && !c.dom.role && bnum l 0 1 != c.dom.inst) ||
    (op == 0x40 && bnum l 0 4 == 3 && (s.sag.sealed || s.sag.signKey.isSome))

/-- Checks 5 to 7 of R380, for the part of a command that runs here. -/
def checkLocal (s : State) (r : CmdRow) : Option (Nat × Nat) :=
  if !r.legal.contains s.core.st.cur then some (csWrongState, stateNum s)
  else if r.presence && !s.sag.present then some (csNeedPresence, 0)
  else if s.ctl.run.any (fun x => x.op == r.op) then some (csBusy, 0) else none

/-- Checks 1 to 4 of R380 on a header and its parameters: the status and DETAIL of the first one that fails. -/
def checkHead (s : State) (h l : List Byte) (both : Bool) : Option (Nat × Nat) :=
  match cmdRow (bnum h 0 2) with
  | none => some (csUnsupported, 0)
  | some r =>
    if (r.priv && !both) || lacksRole s r.op (bnum h 6 2 % 2 == 1) l then some (csDenied, 0)
    else if 2 ≤ bnum h 6 2 then some (csBadParam, 6)
    else if bnum h 12 4 ≠ 0 then some (csBadParam, 12)
    else if !r.lens.contains l.length then some (csBadParam, 2)
    else match badParam s r.op l with
      | some i => some (csBadParam, 64 + i)
      | none => none

/-- The time a command may take (R377). -/
def cmdLimit (h : List Byte) : Nat := (if bnum h 10 2 = 0 then 256 else bnum h 10 2) * 1024

/-- The parts of a domain command for other instances are sent, or recorded at once (R312, R313, R383). -/
def relayAll (s : State) (x : Cmd) (h : List Byte) (presence : Bool) : Cmd × State :=
  ((List.range 16).filter (fun i => x.targets.getLsbD i && i != s.core.dom.inst)).foldl (fun (y : Cmd × State) i =>
    let x := y.1
    let s := y.2
    if presence then ({ x with stats := mput x.stats i csDenied }, s)
    else if 4080 < 64 + x.params.length then ({ x with stats := mput x.stats i csBadParam }, s)
    else
      let tag := (s.core.dom.rtag + 1) % 2 ^ 32
      let head := h.take 6 ++ leBytes 0 2 ++ h.drop 8
      let s := withCore s (fun c =>
        mgtSend (domMod c (fun d => { d with rtag := tag })) 6 i (leBytes tag 4 ++ leBytes 0 4 ++ head ++ x.params))
      ({ x with rtags := x.rtags ++ [(tag, i)] }, s)) (x, s)

/-- A command that has passed checks 1 to 4 begins (R380, R381, R383). -/
def cmdStart (s : State) (o : CmdFrom) (h l : List Byte) : State :=
  match cmdRow (bnum h 0 2) with
  | none => s
  | some r =>
    let x : Cmd := { op := r.op, origin := o, params := l, t0 := now s.core, limit := cmdLimit h }
    if bnum h 6 2 % 2 = 0 then
      match checkLocal s r with
      | some e => answerCmd s o e.1 e.2 []
      | none => withCtl s (fun t => { t with run := t.run ++ [x] })
    else
      let x := { x with domain := true, targets := BitVec.ofNat 16 (bnum h 8 2) }
      if s.ctl.run.any (fun y => y.op == r.op) then answerCmd s o csBusy 0 []
      else
        let y := relayAll s x h r.presence
        let own := x.targets.getLsbD s.core.dom.inst
        let z : Cmd := if !own then { y.1 with phase := localDone }
          else match checkLocal s r with
            | some e => { y.1 with phase := localDone, stats := mput y.1.stats s.core.dom.inst e.1 }
            | none => y.1
        domainEnd (withCtl y.2 (fun t => { t with run := t.run ++ [z] })) z

/-- CP takes the packet of a pointer (R380). -/
def cmdTake (s : State) (m : Nat) (p : BitVec 64) (both : Bool) : State :=
  let lost := fun (s : State) =>
    let s := withCore s (fun c => event c 0x103 [wd m, loW p.toNat, hiW p.toNat])
    replyTo s m (p ||| BitVec.ofNat 64 (2 ^ 62))
  let shape := p.toNat / 2 ^ 48 % 2 ^ 15 = 0 ∧ p.toNat % 64 = 0
  if !pktFits s p 0 64 then lost s
  else match pktRead s p 0 64 with
    | (none, s) => lost s
    | (some h, s) =>
      let n := bnum h 2 2
      if ¬ shape then answerCmd s (.box m p) csBadParam 0 []
      else if 4096 < n ∨ n % 4 ≠ 0 ∨ !pktFits s p 64 n then answerCmd s (.box m p) csBadParam 2 []
      else match pktRead s p 64 n with
        | (none, s) => answerCmd s (.box m p) csBadParam 64 []
        | (some l, s) =>
          match checkHead s h l both with
          | some e => answerCmd s (.box m p) e.1 e.2 []
          | none => cmdStart s (.box m p) h l

/-- The states in which CP takes pointers, and fewer than 4 commands in progress, none of them to be run to its end first (R381). -/
def cpTakes (s : State) : Bool :=
  cpRuns s && s.core.st.cur != .off && s.core.st.cur != .init && decide (s.ctl.run.length < 4) &&
    s.ctl.run.all (fun x => x.phase == localDone || (match cmdRow x.op with | some r => r.long | none => false))

/-- Commands that CP has taken end with WRONG_STATE when FLUSH is entered, but for POWER_DOWN (R382). -/
def cmdsFlush (s : State) : State :=
  (s.ctl.run.filter (fun x => x.op != 0x14)).foldl (fun s x => cmdStop s x csWrongState (stateNum s)) s

/-- The running command of an opcode at a phase. -/
def cmdAt (s : State) (op phase : Nat) : Option Cmd := s.ctl.run.find? (fun x => x.op == op && x.phase == phase)

/-- A command of an opcode that has been taken and has not begun is carried out, if CP runs. -/
def onCmd (s : State) (op : Nat) (f : State → Cmd → State) : Host.Outcome State Fault Refusal :=
  match cmdAt s op 0 with
  | some x => if cpRuns s && s.core.st.cur != .off then .next (f s x) else .next s
  | none => .next s

end Sys2Proof.Machine
end

