-- ==== Sys2Proof/Machine/Control.lean ====
section
/-! DEFINITION. Power, reset, start and the flush: port resets, PWR_OK, calibration, images, warm reset, PWRFAIL_N, presence, processor
faults (R18, R72 to R76, R234, R242 to R260, R384, R387, R454, R465 to R485). -/

namespace Sys2Proof.Machine

/-! ### Port resets (R72 to R76). -/

/-- A port stops, as under R46 or R29. -/
def stopPort (c : Core) : PortId → Core
  | .c p => cClose (cpMod c p.val (fun x => { x with stopped := true })) p.val
  | .d p => dClose (dpMod c p.val (fun x => { x with stopped := true })) p.val
  | .b p => bClose (bpMod c p.val (fun x => { x with stopped := true })) p.val
  | .s n => linkDown (spMod c n.val (fun x => { x with stopped := true })) n.val false

/-- The level of a port's reset terminal. -/
def resetLevel (c : Core) (v : Bool) : PortId → Core
  | .c p => cpMod c p.val (fun x => { x with resetIn := v, stopped := x.stopped && !v })
  | .d p => dpMod c p.val (fun x => { x with resetIn := v, stopped := x.stopped && !v })
  | .b p => bpMod c p.val (fun x => { x with resetIn := v, stopped := x.stopped && !v })
  | .s n => spMod c n.val (fun x => { x with resetIn := v, stopped := x.stopped && !v })

/-- Xn_RESET_N is asserted: the port closes (R72); the locks of a D-port are released (R372). -/
def portDown (s : State) (p : PortId) : State :=
  let s := withCore s (fun c =>
    let lost := match p with
      | .s n => !(spGet c n.val).resetIn
      | _ => false
    let c := resetLevel c true p
    match p with
    | .c q => carry (cClose c q.val)
    | .d q => dClose c q.val
    | .b q => carry (bClose c q.val)
    | .s n => linkDown c n.val lost)
  match p with
  | .d q => dropLocks s (2 + q.val)
  | .b _ => startCheck s
  | _ => s

/-- Xn_RESET_N is deasserted: the port opens once its resolution is complete (R72). -/
def portUp (s : State) (p : PortId) : State :=
  withCore s (fun c =>
    let c := resetLevel c false p
    match p with
    | .c q => cOpen c q.val
    | .d q => dResolve c q.val
    | .b q =>
      if !(bpGet c q.val).closed || (bpGet c q.val).stopped then c
      else
        bGrantIn (bpMod c q.val (fun x => { x with closed := false })) q.val
    | .s n =>
      let x := spGet c n.val
      if x.linkUp && !x.stopped && !x.gotTrain && portsUp c then announce c n.val else c)

/-- PORT_RESET (R72). Without power only the terminal's level is kept. -/
def execPortReset (p : PortId) (s : State) : Host.Outcome State Fault Refusal :=
  if s.core.st.cur = .off then .next (withCore s (fun c => resetLevel c true p)) else .next (portDown s p)

/-- PORT_RESET_RELEASE (R72). -/
def execPortResetRelease (p : PortId) (s : State) : Host.Outcome State Fault Refusal :=
  if s.core.st.cur = .off then .next (withCore s (fun c => resetLevel c false p)) else .next (portUp s p)

/-! ### The end of transactions for a flush or a warm reset (R244, R253). -/

/-- The entry holds a write, or dirty data, that R244 carries through. -/
def keepsData (t : Trk) : Bool := t.wrote || t.dirtyIn.isSome || t.mirrors != 0

/-- What becomes of a tracker entry under R244: one whose write has begun completes it; dirty data received is written as a write-back's;
a write-back waits to be written; every other entry is freed. -/
def endTrk (all : List Trk) (t : Trk) : Option Trk :=
  let hostKept := match t.mate with
    | some m => all.any (fun x => x.slice == t.slice && x.idx == m && keepsData x && !x.cmpSent)
    | none => false
  let quiet := { t with
    snoops := [], awaitWb := [], fwd := none, forwarded := false, victim := false, newEnt := none, lateFilter := false, fill := .none
    acked := true, durDone := true, mate := none, st := .gather }
  if t.second || t.cmpSent then none
  else if t.req.op == .wbDirty then
    if keepsData t then some t
    else if t.st == .attached && hostKept then some t
    else if t.passed then none else some { t with st := .deferred, mate := none }
  else if t.wrote then some { quiet with bundle := none, transit := false }
  else if keepsData t then some { quiet with req := { t.req with op := .wbDirty, src := gwOwn }, bundle := if t.through then t.bundle else none }
  else none

/-- Drained STOREs whose entry is freed, or whose own write is given up: the buffer hears of each (R244). -/
def endedStores (c : Core) : List (Nat × Nat) :=
  (c.arr.trk.filter (fun t => t.req.op == .store && !t.wrote && !t.cmpSent && !t.second && decide (82 ≤ t.req.src) && decide (t.req.src < 90))).map
    (fun t => (t.req.src - 82, t.req.tag))

/-- BE_READs of ended transactions: their BE_DATA is discarded if it arrives (R244). -/
def dropReads (c : Core) : Core :=
  c.reads.foldl (fun c r =>
    let c := if r.st == .out then deadTag c r.port r.tag r.key else c
    readDel c r) c

/-- A local D-port's STORE. -/
def ownStore (r : Req) : Bool := r.op == .store && decide (82 ≤ r.src) && decide (r.src < 90)

/-- The WB_DIRTY flits that wait in a C-port's inbound boundary FIFO, as they are delivered (R243 step 2, R244). -/
def waitingData (p : Nat) (x : CPort) : List Req :=
  (x.inq.filter (fun g => fMsg g.1 == some .wbDirty)).map (fun g => { op := .wbDirty, src := gwOwn, tag := fTag g.1, rid := cRid p g.1, line := fLine g.1, be := beAll, data := g.1.pay, poison := poisonIn .wbDirty g.1 })

/-- In-flight transactions end (R244): no completion and no snoop leaves from now on. -/
def endAll (c : Core) : Core :=
  let c := c.cport.foldl (fun c x => (x.2.inq.filter (fun g => fClass g.1 == 3)).foldl (fun c g => cData c x.1 g.1) c) c
  let told := endedStores c
  let buffered := fun (x : Cmp) => decide (82 ≤ x.dst) && decide (x.dst < 90) && (dpGet c (x.dst - 82)).psb.any (fun b => b.tag == x.tag)
  let all := c.arr.trk
  let arr := { c.arr with trk := all.filterMap (endTrk all), resv := [], setRec := [], changes := [] }
  let fab := { c.fab with
    reqs := c.fab.reqs.filter (fun r => r.op == .wbDirty || ownStore r) ++ (c.cport.flatMap (fun x => waitingData x.1 x.2)), cmps := c.fab.cmps.filter buffered, holdN := []
    abandon := c.fab.abandon ++ told }
  let c := dropReads { c with ending := true, arr := arr, fab := fab, trill := [] }
  let c := { c with
    cport := (List.range 16).foldl (fun m p => let x := mget m p {}; mput m p { resetIn := x.resetIn, stopped := x.stopped, closed := true })
      c.cport
    dport := c.dport.map (fun x => (x.1, { x.2 with tags := [], loads := [], early := [], waiting := none, fencing := false, fifo := [] }))
    gw := c.gw.map (fun x => (x.1, { x.2 with
      tags := x.2.tags.filter (fun t => ownStore t.req), lineq := x.2.lineq.filter (fun r => ownStore r || r.op == .wbDirty), snoops := [] })) }
  carry ((List.range 8).foldl dClose c)

/-- A bundle whose last flit has not been sent is ended; its lines stay dirty and mirrored (R253). -/
def endBundle (c : Core) (x : Bundle) : Core :=
  let c := if x.st = .started ∧ (bpGet c x.port).resetIn = false then bpOut c x.port (abortFlit c x) else c
  let c := x.lines.foldl (fun c l => if lineBundle c l.line = some x.id then setLineBundle c l.line none else c) c
  let c := { c with arr := { c.arr with trk := c.arr.trk.map (fun t =>
    if t.bundle = some x.id then { t with bundle := none, through := false, st := if t.through then .place else t.st } else t) } }
  bpMod (bqDrop (bunDel c x.id) x.port x.id) x.port (fun y => { y with cur := if y.cur = some x.id then none else y.cur })

/-! ### The flush (R242 to R248). -/

/-- A dirty line's data is bad in both copies (R247). -/
def bothBad (c : Core) (line : Nat) : Bool :=
  match dirtyLoc c line with
  | some (_, _, _, l) => l.dbad && (match mirFind c (sliceOf c line) line with
    | some v => (lcRd c (physOf c (partnerOf (sliceOf c line))) (lcSet line) v).dbad
    | none => true)
  | none => false

/-- Step 5 of R243: the dirty lines that may be bundled go into flush bundles. -/
def flushWalk (s : State) : State :=
  let lines := fun (c : Core) (sl : Nat) => bundleable c sl
  let lost := ((List.range 33).flatMap (lines s.core)).filter (bothBad s.core)
  let c := (List.range 33).foldl (fun c sl => let l := lines c sl; bundleMany l.length c sl 1 l none true) s.core
  { s with core := carry c, pers := { s.pers with bothLost := s.pers.bothLost ++ lost } }

/-- Region commits that wait for a record never take effect (R256). -/
def dropCommits (s : State) : State :=
  let ks := s.pers.commits ++ (match s.pers.write with
    | some (.region k, _) => [k]
    | _ => [])
  let drop := fun (m : Map Region) (k : Nat) => let e := mget m k {}; mput m k { e with stage := e.cur, pend := false }
  { s with pers := { s.pers with commits := [], write := none, attempt := false, failed := false }
           core := { s.core with rgn := ks.foldl drop s.core.rgn } }

/-- Step 1 of R243: FLUSH is entered; VREQ holds code 60; Trill, Pug, Fettler and Bisque stop. A warm reset that has not taken effect waits
for the flush to end (R242). -/
def flushBegin (s : State) (cause : Nat) : State :=
  let s := dropCommits (abandonMigr s)
  let s := withCore s (fun c =>
    let c := setState c .flush
    let pug := c.pug.map (fun x => (x.1, { x.2 with busy := false, aborting := false, issued := false, inFlight := 0, waits := [] }))
    codeSet { c with volt := { c.volt with held60 := true }, pug := pug, lcBusy := false, lcReen := false })
  let s := cmdsFlush s
  let s := withCore s (fun c =>
    let waiting := c.arr.trk.map (fun t => if t.st == .queued && t.pool == .writeback then { t with st := .deferred } else t)
    endAll { c with arr := { c.arr with trk := waiting } })
  let pers := { s.pers with
    flushAt := now s.core, flushCause := cause, written := 0, bothLost := [], spanLost := 0, closing := false, meters := [], flushSkip := 0 }
  flushWalk { s with pers := pers, pwr := { s.pwr with warmPend := false, resetPend := s.pwr.resetPend || s.pwr.warmPend, flushAfterCal := false } }

/-- The flush of a warm start (R251): back-ends that are not ready are not waited for. -/
def flushWarm (s : State) : State :=
  let skip : BitVec 16 := BitVec.ofNat 16 (ofBits ((List.range 16).filter (fun b => !(bpGet s.core b).ready)))
  let s := flushBegin s 1
  { s with pers := { s.pers with flushSkip := skip } }

/-- HALT before a generation is open (R250). -/
def haltEarly (s : State) : State :=
  let s := dropCommits s
  { s with core := setState s.core .halt, pwr := { s.pwr with flushAfterCal := false } }

/-- Dirty lines that are not pinned, in their locations and in the pinned holds. -/
def openLines (c : Core) : List Nat :=
  (c.arr.lc.filter (fun p => p.2.use.isDirty && !p.2.pin)).map (fun p => p.2.line) ++
    (c.arr.hold.filter (fun h => !h.pinned)).map (fun h => h.line)

/-- Dirty data in a tracker entry has been answered with EXHAUSTED and finds the pinned hold full (R185, R247). -/
def refusedOut (c : Core) (t : Trk) : Bool := t.told && t.st == .place && t.dirtyIn.isSome && wrefOf c t.req.line

/-- Lines whose data still lies in tracker entries, but for those that a back-end has refused. -/
def trkLines (c : Core) : List Nat :=
  (c.arr.trk.filter (fun t => (t.dirtyIn.isSome || (t.req.op == .wbDirty && !t.passed)) && !refusedOut c t)).map (fun t => t.req.line)

/-- Everything of steps 3 to 6 of R243 has ended: each line is durable, refused, or served by a back-end that is not waited for. -/
def flushDone (s : State) : Bool :=
  let c := s.core
  let skipped := fun (b : Nat) => s.pers.flushSkip.getLsbD b
  c.bundles.all (fun x => skipped x.port) && (openLines c).all (fun l => match bportOf c l with
      | some b => skipped b
      | none => false) &&
    (trkLines c).all (fun l => match bportOf c l with
      | some b => skipped b
      | none => false) && c.arr.trk.all (fun t => t.mirrors == 0) && (List.range 8).all (fun d => (dpGet c d).psb == []) &&
    c.fab.reqs.all (fun r => !(r.op == .wbDirty || ownStore r)) && c.fab.abandon == []

/-- The CLOSE record of a flush that now comes to step 7 (R247, R255). -/
def closeRecord (s : State) : Record :=
  let c := s.core
  let pinned := pinnedLines c (fun _ => true) ++ (c.arr.trk.filter (refusedOut c)).map (fun t => t.req.line)
  let late := (openLines c ++ trkLines c ++ s.pers.bothLost).eraseDups
  let maps := ofBits ((List.range 16).filter (fun r => (pinned ++ late).any (fun l => rgnIndex c l == some r)))
  { close := true, seq := nextSeq s.pers, gen := s.pers.gen, uid := uidShown, persMap := persMap c, holdupMap := holdupMap c
    lostMap := BitVec.ofNat 16 maps, cause := s.pers.flushCause, written := s.pers.written, incomplete := late.length
    pinnedLost := min pinned.length 0xFFFF, spanLost := min s.pers.spanLost 0xFFFF, ticks := (now c - s.pers.flushAt) % 2 ^ 32
    regions := rgnCopies c }

/-- Step 7 of R243: the CLOSE record is written, and the flush is counted. -/
def closeStart (s : State) : State :=
  let s := recStart s .close (closeRecord s)
  flushMeter { s with pers := { s.pers with closing := true } }

/-- FLUSH_LIMIT has expired. -/
def pastLimit (s : State) : Bool := decide (s.pers.flushAt + 2 ^ fld (regv s.core 0x600) 4 0 ≤ now s.core)

/-- STATUS of POWER_DOWN by its record (R390). -/
def downStatus (r : Record) : Nat :=
  if r.incomplete = 0 ∧ r.spanLost = 0 then (if r.pinnedLost = 0 then csOK else csExhausted) else csInternal

/-- Reply of POWER_DOWN (R390). -/
def downReply (r : Record) : List Byte :=
  leBytes r.written 4 ++ leBytes r.incomplete 4 ++ leBytes r.pinnedLost 2 ++ leBytes r.spanLost 2 ++ leBytes r.ticks 4

/-- Step 8 of R243: POWER_DOWN ends, then HALT; a warm reset that waits begins (R242, R390). -/
def flushHalt (s : State) (r : Record) (ok : Bool) : State :=
  let s := match cmdAt s 0x14 1 with
    | some x => cmdEnd s x (if ok then downStatus r else csInternal) 0 (downReply r)
    | none => s
  { s with core := setState s.core .halt, pwr := { s.pwr with resetPend := false, warmPend := s.pwr.resetPend } }

/-- The CLOSE record's write ends (R243, R256). -/
def closeEnds (s : State) (ok : Bool) : State :=
  match s.pers.write with
  | some (.close, r) =>
    if !s.pers.attempt then s
    else if ok then
      let p := slotPut s.pers r.seq (.valid r)
      flushHalt { s with pers := { p with seq := r.seq, gen := r.gen, genOpen := false, write := none, attempt := false, failed := false, closing := false } } r true
    else
      let s := if s.pers.failed then s else withCore s (fun c => event c 0x603 [2, wd r.seq])
      let s := { s with pers := { slotPut s.pers r.seq .invalid with failed := true, attempt := false } }
      if pastLimit s then flushHalt { s with pers := { s.pers with write := none, failed := false, closing := false } } r false else s
  | _ => s

/-- FLUSH_LIMIT expires: step 7 begins with what is durable, or a failing record is given up (R243, R256). -/
def limitEnds (s : State) : State :=
  if s.core.st.cur ≠ .flush ∨ pastLimit s = false then s
  else match s.pers.closing, s.pers.write with
    | false, _ => closeStart s
    | true, some (_, r) =>
      if s.pers.failed && !s.pers.attempt then
        flushHalt { s with pers := { s.pers with write := none, failed := false, closing := false } } r false else s
    | true, none => s

/-- SPAN_WAIT in ticks (R245). -/
def spanWaitTicks (c : Core) : Nat := fld (regv c 0x600) 13 5 * 16

/-- Remote buffered STOREs are given up: those that no SPAN_ACK covers are counted in SPAN_LOST (R245). -/
def dropRemote (s : State) : State :=
  let c := s.core
  if c.st.cur ≠ .flush ∨ now c < s.pers.flushAt + spanWaitTicks c then s
  else
    let remote := fun (b : Psb) => !isLocal c b.line
    let waits := fun (d : Nat) (b : Psb) =>
      let g := gwGet c (pfBank b.line)
      !b.issued || g.lineq.any (fun r => r.src == epD d && r.tag == b.tag) ||
        g.tags.any (fun t => t.req.src == epD d && t.req.tag == b.tag && g.tx.any (fun m => m.dst == t.dst && (rxFlit m).tag == t.tag && m.msg == .store))
    let lost := (List.range 8).foldl (fun n d => n + ((dpGet c d).psb.filter (fun b => remote b && waits d b)).length) 0
    let c := { c with
      dport := c.dport.map (fun x => (x.1, { x.2 with psb := x.2.psb.filter (fun b => !remote b) }))
      gw := c.gw.map (fun x => (x.1, { x.2 with tags := [], lineq := [], tx := x.2.tx.filter (fun m => m.msg != .store) })) }
    { s with core := c, pers := { s.pers with spanLost := s.pers.spanLost + lost } }

/-- PWRFAIL_N is taken (R242, R250, R251). -/
def powerFail (s : State) : State :=
  let s := { s with pwr := { s.pwr with pwrfail := true } }
  match s.core.st.cur with
  | .off | .flush | .halt => s
  | .init | .waitBackend =>
    if !s.pwr.warm || !s.pers.genOpen then haltEarly s
    else if s.core.st.cur = .init ∧ !s.pwr.calibrated then { s with pwr := { s.pwr with flushAfterCal := true } }
    else flushWarm s
  | _ =>
    if !s.pers.genOpen then haltEarly s else flushBegin s 1

/-! ### PWR_OK (R384, R475, R482). -/

/-- The data side at a cold start: every register and array at its reset value, the straps as sampled, the port terminals as they
stand. -/
def coldCore (old : Core) (inst : Nat) (strap : Bool) : Core :=
  { free := old.free
    dom := { inst := inst, strap := strap, role := strap, chanter := if strap then inst else 0, members := BitVec.ofNat 16 (2 ^ inst) }
    cport := old.cport.map (fun x => (x.1, { resetIn := x.2.resetIn, closed := x.2.resetIn }))
    dport := old.dport.map (fun x => (x.1, { resetIn := x.2.resetIn, closed := x.2.resetIn }))
    bport := old.bport.map (fun x => (x.1, { resetIn := x.2.resetIn, closed := x.2.resetIn }))
    sport := old.sport.map (fun x => (x.1, { resetIn := x.2.resetIn })) }

/-- PWR_OK is taken: INIT of a cold start, or HALT at once where PWRFAIL_N has been taken (R250, R291, R482). -/
def coldStart (s : State) (inst : Nat) (strap : Bool) : State :=
  let s' : State := {
    pending := s.pending, core := (List.range 16).foldl bGrantIn (coldCore s.core inst strap), sag := { s.sag with debugOpen := 0 }
    ctl := { versions := [0, 0, 0, s.sag.lpVer] }, pers := { slot0 := s.pers.slot0, slot1 := s.pers.slot1 }
    pwr := { sel := s.pwr.sel, vddsUp := s.pwr.vddsUp, vddsWarn := s.pwr.vddsWarn, service := s.pwr.service, pwrfail := s.pwr.pwrfail } }
  if s.pwr.pwrfail then haltEarly s' else s'

/-- PWR_OK_ASSERT (R482). -/
def execPwrOkAssert (inst : Fin 16) (chanterN : Bool) (s : State) : Host.Outcome State Fault Refusal :=
  if s.core.st.cur = .off then .next (coldStart s inst.val (!chanterN)) else .next s

/-- PWR_OK_DEASSERT (R384): everything outside Saggar and the store is lost. -/
def execPwrOkDeassert (s : State) : Host.Outcome State Fault Refusal :=
  .next { s with core := { s.core with st := { cur := .off, prev := s.core.st.cur } }, pwr := { s.pwr with pwrfail := false } }

/-! ### INIT (R258, R259, R472, R482 to R484). -/

/-- Calibration ends; a unit without margin counts as failed (R483). A flush that has waited for it begins (R251). -/
def calibrated (s : State) (slices : List (Fin 33)) (links : List (Fin 112)) (ports : List PortId) : State :=
  if s.core.st.cur ≠ .init ∨ s.pwr.calibrated = true then s
  else
    let s := { s with pwr := { s.pwr with
      calibrated := true, resetN := false, calfail := min 15 (slices.length + links.length + ports.length) } }
    let s := slices.foldl (fun s n => sliceDown s n.val 3) s
    let s := links.foldl (fun s l => fabricLinkDown s l.val) s
    let s := withCore s (fun c => ports.foldl stopPort c)
    if s.pwr.flushAfterCal then flushWarm s else s

/-- RESULT and the maps of a record found at start (R259). -/
def reportOf (p : Pers) : Pers :=
  match slotPick p.slot0 p.slot1 with
  | some r =>
    let bad := r.incomplete ≠ 0 ∨ r.pinnedLost ≠ 0 ∨ r.spanLost ≠ 0
    { p with
      seq := r.seq, gen := r.gen, report := some r
      result := if !r.close then 2 else if bad then 3 else 0
      holdupMap := if !r.close then r.holdupMap else if bad then r.lostMap else 0
      postedMap := if !r.close then r.persMap &&& ~~~ r.holdupMap else 0
      cnt0 := if r.close then r.incomplete else 0
      cnt1 := if r.close then r.pinnedLost + 65536 * r.spanLost else 0
      ticks := if r.close then r.ticks else 0 }
  | none =>
    let blank := p.slot0 = .erased ∧ p.slot1 = .erased
    { p with
      seq := 0, gen := 0, report := none, result := if blank then 1 else 4
      holdupMap := if blank then 0 else 0xFFFF, postedMap := if blank then 0 else 0xFFFF, cnt0 := 0, cnt1 := 0, ticks := 0 }

/-- A cold start reads the record and reports it (R258 to R260); Saggar's key slots are loaded; the serial number is checked (R354); the
spare is tested (R482). -/
def coldEnd (s : State) : State :=
  let s := { s with pers := reportOf s.pers, bisq := { s.bisq with testing := s.bisq.spare.isSome } }
  withCore s (fun c =>
    let c := { c with keys := s.sag.keyRecs, role := mput c.role 32 .recovering }
    let c := if Config.uidCheck then c else alarmEvent c 8 (Config.openCode 0) []
    if 2 ≤ s.pers.result then
      alarmEvent (hwSet c 0x604 3) 4 0x601 [wd s.pers.result, wd (s.pers.holdupMap.toNat + 65536 * s.pers.postedMap.toNat)]
    else c)

/-- Step 6 of a warm start: write-back data is written, transit lines are bundled, and what is beyond the budget drains (R183, R253, R484). -/
def warmEnd (s : State) : State :=
  withCore s (fun c =>
    let trk := c.arr.trk.map (fun t => if t.st == .queued && t.pool == .writeback then { t with st := .deferred } else t)
    let c := carry { c with arr := { c.arr with trk := trk } }
    drainAll ((List.range 33).foldl (fun c sl =>
      let l := (bundleable c sl).filter (fun x => match dirtyLoc c x with
        | some (_, _, _, y) => y.use == .transit
        | none => false)
      bundleMany l.length c sl 1 l none false) c))

/-- INIT ends: the processors start, and WAIT_BACKEND is entered (R258, R482 step 6, R484 step 7). -/
def initEnd (s : State) : State :=
  let s := newNonce (if s.pwr.warm then warmEnd s else coldEnd s)
  let s := withCtl s (fun t => { t with up := true, down := [] })
  let s := withCore s (fun c =>
    setState { c with rgn := c.rgn.map (fun x => (x.1, { x.2 with keyTold := false })) } .waitBackend)
  startCheck { s with pwr := { s.pwr with tInit := startTicks s, kind := s.pwr.warm } }

/-- Processor p's slot under trial: the selected one, or after its failure the other (R472). -/
def slotTried (s : State) (p : Nat) : Bool := s.pwr.sel.getLsbD p != s.pwr.triedOther

/-- Set bit p of a 3-bit field. -/
def setBit3 (x : BitVec 3) (p : Nat) (v : Bool) : BitVec 3 :=
  let m : BitVec 3 := BitVec.ofNat 3 (2 ^ p)
  if v then x ||| m else x &&& ~~~ m

/-- The last byte of an image arrives (R472). -/
def imageIn (s : State) (p : Nat) (ok : Bool) (version : Word) : State :=
  if s.core.st.cur ≠ .init ∨ s.pwr.calibrated = false ∨ s.pwr.loaded.length ≠ p then s
  else if ok then
    let m := memLoad s (slotTried s p)
    let s := withCtl m.2 (fun t => { t with mem := mput t.mem p m.1 })
    let s := if s.pwr.triedOther then withCore s (fun c => alarm c 14) else s
    let s := { s with pwr := { s.pwr with
      loaded := s.pwr.loaded ++ [p], slot := setBit3 s.pwr.slot p (slotTried s p), fallback := setBit3 s.pwr.fallback p s.pwr.triedOther
      triedOther := false } }
    let s := withCtl s (fun t => { t with versions := modAt t.versions p (fun _ => version) })
    if s.pwr.loaded.length = 3 then initEnd s else s
  else if !s.pwr.triedOther then { s with pwr := { s.pwr with triedOther := true } }
  else { s with core := setState (alarm s.core 14) .halt, pwr := { s.pwr with triedOther := false } }

/-- CALIBRATION_DONE (R483). -/
def execCalibrationDone (slices : List (Fin 33)) (links : List (Fin 112)) (ports : List PortId) (s : State) :
    Host.Outcome State Fault Refusal :=
  onState s (fun s => calibrated s slices links ports)

/-- IMAGE_LOADED (R472). -/
def execImageLoaded (proc : Fin 3) (ok : Bool) (version : Word) (s : State) : Host.Outcome State Fault Refusal :=
  onState s (fun s => imageIn s proc.val ok version)

/-! ### Warm reset (R234, R253, R484). -/

/-- RESET_N is taken (R242, R384, R484). -/
def resetTaken (s : State) : State :=
  match s.core.st.cur with
  | .off => s
  | .flush => { s with pwr := { s.pwr with resetPend := true } }
  | .init =>
    if s.pwr.flushAfterCal then { s with pwr := { s.pwr with resetPend := true } }
    else { s with pwr := { s.pwr with resetN := true, calibrated := false, loaded := [], triedOther := false } }
  | .halt => { s with pwr := { s.pwr with warmPend := true, resetN := true } }
  | _ =>
    if s.pwr.warmPend then s
    else
      let s := abandonMigr { s with pwr := { s.pwr with warmPend := true, resetN := true } }
      withCore s (fun c =>
        let c := endAll c
        (c.bundles.filter (fun x => x.st == .formed || x.st == .started)).foldl endBundle c)

/-- Every buffered STORE is freed, and nothing but write-back data is left in the trackers (R234, R253). -/
def drained (c : Core) : Bool :=
  (List.range 8).all (fun d => (dpGet c d).psb == []) && c.arr.trk.all (fun t => t.pool == .writeback && t.mirrors == 0) &&
    c.fab.reqs == [] && c.fab.mirW == [] && c.fab.mirA == [] && c.fab.abandon == []

/-- A write-back entry whose data a warm reset retains (R253). -/
def keptWb (t : Trk) : Option Trk :=
  let d := match t.dirtyIn with
    | some x => x
    | none => (t.req.data, t.req.poison)
  if t.req.op ≠ .wbDirty ∨ (t.passed && t.dirtyIn.isNone) then none
  else some { slice := t.slice, phys := t.phys, idx := t.idx, pool := .writeback, t0 := t.t0
              req := { t.req with data := d.1, poison := d.2 }
              through := t.through && t.bundle.isSome, bundle := if t.through then t.bundle else none }

/-- The arrays after a warm reset: dirty and Mirror locations, the pinned holds, write-back data and the maps of bad cells stay (R159,
R161, R187, R253). -/
def warmArrays (c : Core) (alive : Nat → Bool) : Arrays :=
  let a := c.arr
  { trk := a.trk.filterMap keptWb
    lc := (a.lc.filter (fun p => p.2.use.isDirty || p.2.use == .mirror)).map (fun p =>
      (p.1, { p.2 with bundle := p.2.bundle.filter alive, mirrored := p.2.use != .mirror }))
    retired := a.retiring.map (fun r => (r.1, r.2.2.1, r.2.2.2)) ++ a.retired, disabled := a.disabled, disWays := a.disWays, fails := a.fails
    leaving := a.leaving, replace := a.replace
    hold := a.hold.map (fun h => { h with bundle := h.bundle.filter alive }), age := a.age }

/-- The data side after a warm reset (R253, R349, R484, R485). -/
def warmCore (c : Core) : Core :=
  let sent := c.bundles.filter (fun x => x.st == .sent)
  let alive := fun (id : Nat) => sent.any (fun x => x.id == id)
  { tick := c.tick, free := c.free, st := c.st
    regs := c.regs.filter (fun x => !(regInfo x.1).warm)
    flags := c.flags.filter (fun x => !(regInfo (x.1 / 32)).warm)
    ctr := c.ctr.filter (fun x => !(regInfo x.1).warm)
    rgn := c.rgn.map (fun x => (x.1, { x.2 with stage := if x.2.pend then x.2.stage else x.2.cur }))
    cport := c.cport.map (fun x => (x.1, { resetIn := x.2.resetIn, stopped := x.2.stopped, closed := x.2.resetIn || x.2.stopped }))
    dport := c.dport.map (fun x => (x.1, { resetIn := x.2.resetIn, stopped := x.2.stopped, closed := x.2.resetIn || x.2.stopped }))
    bport := c.bport.map (fun x => (x.1, { x.2 with reported := x.2.ready, hlth := [], queue := [], cur := none, ctrs := [], lostAt := [], lostSeq := 0, entries := [] }))
    sport := c.sport.map (fun x => (x.1, { resetIn := x.2.resetIn, stopped := x.2.stopped, linkUp := x.2.linkUp }))
    dom := { inst := c.dom.inst, strap := c.dom.strap, role := c.dom.role, chanter := c.dom.chanter, noChanter := c.dom.noChanter
             members := BitVec.ofNat 16 (2 ^ c.dom.inst), pseq := c.dom.pseq, rtag := c.dom.rtag, echoId := c.dom.echoId, lastBeat := now c
             lastBeatSent := now c, helloAt := now c, routeAt := now c, funnelQ := c.dom.funnelQ, funnelLost := c.dom.funnelLost }
    arr := warmArrays c alive
    bearer := c.bearer, role := c.role, out := c.out, bundles := sent, nextBundle := c.nextBundle
    fab := { meters := c.fab.meters }, wire := c.wire
    fabric := { links := c.fabric.links, routers := c.fabric.routers, detour := c.fabric.detour }
    log := c.log, logSeq := c.logSeq, flue := c.flue, alarmFirst := c.alarmFirst, keys := c.keys, keyNext := c.keyNext
    leakAt := now c, evalAt := now c
    volt := { code := c.volt.code, floor := c.volt.floor, wanted := c.volt.wanted, speed := c.volt.speed, temp := c.volt.temp
              excluded := c.volt.excluded } }

/-- Warm reset takes effect: NDR_STATE becomes INIT (R234, R253, R484 step 2). The spare and its test state stay (assumption 83). -/
def warmEffect (s : State) : State :=
  let c := warmCore s.core
  let c := setState (codeSet c) .init
  let again := match s.pers.write with
    | some (.region k, _) => k :: s.pers.commits
    | _ => s.pers.commits
  { s with
    core := c
    ctl := { versions := s.ctl.versions }
    sag := { s.sag with debugOpen := 0 }
    pers := { s.pers with write := none, attempt := false, failed := false, closing := false, commits := again }
    pwr := { s.pwr with
      warmPend := false, resetPend := false, resetN := true, warm := true, origin := now s.core, calibrated := false, loaded := []
      triedOther := false, testMode := false, pwrfail := false }
    fet := { passAt := now s.core }
    bisq := { s.bisq with phys := 0, bank := 0, way := 0, borrowed := [], repl := none, walk := [], borrowAt := now s.core }
    snap := {}, mport := {} }

/-- WARM_RESET (R484). -/
def execWarmReset (s : State) : Host.Outcome State Fault Refusal := .next (resetTaken s)

/-- WARM_RESET_EFFECT (R234). From HALT there is nothing left to drain. -/
def execWarmResetEffect (s : State) : Host.Outcome State Fault Refusal :=
  onState s (fun s => if s.pwr.warmPend && (s.core.st.cur == .halt || drained s.core) then warmEffect s else s)

/-- PWRFAIL (R242). -/
def execPwrfail (s : State) : Host.Outcome State Fault Refusal := .next (powerFail s)

/-- FLUSH_LIMIT (R243). -/
def execFlushLimit (s : State) : Host.Outcome State Fault Refusal := onState s limitEnds

/-- CLOSE_RECORD (R243). -/
def execCloseRecord (s : State) : Host.Outcome State Fault Refusal :=
  onState s (fun s => if s.core.st.cur == .flush && !s.pers.closing && flushDone s then closeStart s else s)

/-- FLUSH_END (R243). -/
def execFlushEnd (ok : Bool) (s : State) : Host.Outcome State Fault Refusal := onState s (fun s => closeEnds s ok)

/-- SPAN_WAIT (R245). -/
def execSpanWait (s : State) : Host.Outcome State Fault Refusal := onState s dropRemote

/-- TBCLK_LOST (R467). -/
def execTbclkLost (s : State) : Host.Outcome State Fault Refusal :=
  onState s (fun s => powerFail { s with core := hwSet s.core 0x904 0, pwr := { s.pwr with substituted := true } })

/-! ### Presence, test mode, processors (R18, R387, R454, R481). -/

/-- SERVICE_N_ASSERT (R454): keys are erased and debug relocked; PRESENT follows. -/
def execServiceNAssert (s : State) : Host.Outcome State Fault Refusal :=
  if s.pwr.service then .next s
  else
    let s := { s with pwr := { s.pwr with service := true } }
    if s.pwr.vddsUp then .next (eraseKeys (withSag s (fun g => { g with erasing := true }))) else .next s

/-- Presence is gone: its commands end with NEED_PRESENCE, and SERVICE is left (R384, R387, R460). -/
def presenceLost (s : State) : State :=
  let s := withSag { s with pwr := { s.pwr with service := false } } (fun g => { g with present := false })
  let s := (s.ctl.run.filter (fun x => x.phase != localDone && (match cmdRow x.op with
    | some r => r.presence
    | none => false))).foldl (fun s x => cmdEnd s x csNeedPresence 0 []) s
  if s.core.st.cur = .service then { s with core := setState s.core .quiesced } else s

/-- SERVICE_N_DEASSERT (R387). -/
def execServiceNDeassert (s : State) : Host.Outcome State Fault Refusal := .next (presenceLost s)

/-- TEST_MODE_ENTRY (R481): only while RESET_N is asserted and warm reset has taken effect; the next start is a cold one. -/
def execTestModeEntry (s : State) : Host.Outcome State Fault Refusal :=
  onState s (fun s =>
    if !(s.pwr.resetN && s.core.st.cur == .init && s.pwr.warm) then s
    else
      let s := eraseKeys s
      { s with core := { s.core with arr := {}, bundles := [] }
               pers := { s.pers with genOpen := false }
               pwr := { s.pwr with testMode := true, warm := false } })

/-- A faulted processor runs again from the image in a slot (R18, R486); CP ends what it had taken with INTERNAL (R382). -/
def procRuns (s : State) (p : Nat) (other : Bool) (version : Word) : State :=
  let slot := s.pwr.slot.getLsbD p != other
  let m := memLoad s slot
  let s := withCtl m.2 (fun t => { t with
    down := t.down.filter (fun x => x != p), versions := modAt t.versions p (fun _ => version), mem := mput t.mem p m.1, tries := mdel t.tries p })
  let s := if !other then s else { s with
    core := alarm s.core 14
    pwr := { s.pwr with slot := setBit3 s.pwr.slot p slot, fallback := setBit3 s.pwr.fallback p (!s.pwr.fallback.getLsbD p) } }
  if p = 0 then s.ctl.run.foldl (fun s x => cmdStop (cmdUndo s x) x csInternal 0) s else s

/-- A faulted processor's image is authenticated: first that of the slot it ran from, and where that fails the other slot's; where both fail it
stays stopped (R18, R472). -/
def procUp (s : State) (p : Nat) (ok : Bool) (version : Word) : State :=
  let n := mget s.ctl.tries p 0
  if !s.ctl.down.contains p || decide (2 ≤ n) then s
  else if ok then procRuns s p (n == 1) version
  else
    let s := withCtl s (fun t => { t with tries := mput t.tries p (n + 1) })
    if n = 1 then withCore s (fun c => alarm c 14) else s

/-- PROC_FAULT (R18). -/
def execProcFault (proc : Fin 3) (s : State) : Host.Outcome State Fault Refusal := onState s (fun s => procDown s proc.val)

/-- PROC_RESTART (R18). -/
def execProcRestart (proc : Fin 3) (ok : Bool) (version : Word) (s : State) : Host.Outcome State Fault Refusal :=
  onState s (fun s => procUp s proc.val ok version)

/-- VDDS_LOSS (R443, R451): the cell that LP is writing, which is a free value (assumption 49), is torn, and LP is reset with the rest of
Saggar, so its locks are released (R372). -/
def execVddsLoss (s : State) : Host.Outcome State Fault Refusal :=
  let k := takeFree s.core
  let s := { s with core := k.2 }
  .next (dropLocks (vddsDown (match Config.tornCell k.1 with
    | some x => tearCell s x
    | none => s)) 13)

/-- LP_FAULT (R453). -/
def execLpFault (s : State) : Host.Outcome State Fault Refusal :=
  onSag s lpRestart

end Sys2Proof.Machine
end

