-- ==== Sys2Proof/Machine/Flue.lean ====
section
/-! DEFINITION. The Flue's reader and the take of a whole bank (R429, R430, R432). -/

namespace Sys2Proof.Machine

/-- The oldest unread word is returned and removed; with none committed the last value is returned again and UNDERRUN is set (R429). A word
whose parity fails is returned as stored, counted and logged (R430). -/
def flueRead (c : Core) : Word × Core :=
  let f := c.flue
  match f.old.words[f.old.read]? with
  | none => (f.lastWord, hwSet { c with flue := { f with tag := 8 } } 0x20008 16)
  | some x =>
    let tag : BitVec 4 := BitVec.ofNat 4 (b2n x.bad + 2 * b2n x.first + 4 * b2n x.gap)
    let c := { c with flue := flueTurn { f with old := { f.old with read := f.old.read + 1 }, lastWord := x.w, tag := tag } }
    (x.w, if x.bad then arrayError c { cat := 10, kind := 3 } else c)

/-- The records of a bank that have not been read to their last word: those that begin after the word the reader is at, and the one it is
in (R432). -/
def flueUnread (b : FBank) : Nat :=
  let rest := b.words.drop b.read
  (rest.filter (fun x => x.first)).length + (match rest with
    | x :: _ => if x.first then 0 else 1
    | [] => 0)

/-- The bank's first word tells of the records that are missing before it (R432). -/
def markGap : List FWord → List FWord
  | [] => []
  | x :: t => { x with gap := true } :: t

/-- The take (R432): the reader moves to the newer bank, the older one's unread records are lost, and the staged records go to its start. A
reader that has finished its bank by itself loses nothing. -/
def flueTake (f : Flue) : Flue :=
  let fresh := f.staging.flatMap (flueWords false)
  let g := { f with taking := false, staging := [] }
  match f.new with
  | none => { g with new := if fresh = [] then none else some { words := fresh } }
  | some n =>
    flueTurn { g with
      old := { n with words := markGap n.words }, rb := !f.rb, lost := f.lost + BitVec.ofNat 32 (flueUnread f.old)
      new := if fresh = [] then none else some { words := fresh } }

/-- The producer's request is seen on M_CLK (R432). -/
def bankTake (c : Core) : Core :=
  if c.flue.taking then flueRing c { c with flue := flueTake c.flue } else c

/-- BANK_TAKE (R432). -/
def execBankTake (s : State) : Host.Outcome State Fault Refusal := onCore s bankTake

end Sys2Proof.Machine
end

