-- ==== Sys2Proof/Machine/RegRead.lean ====
section
/-! DEFINITION. What every register reads (R344, R353 to R364, R369 to R376, R404, R418, R436, R461, R486 and the register tables of the
other chapters), the counters that a snapshot holds (R352), and the effect of a read: refusals, locks, mailboxes, the Flue. -/

namespace Sys2Proof.Machine

/-- Low and high word of a wide counter: the offset is that of the one or the other (R351). -/
def wideAt (v base a : Nat) : Nat := if a = base then v % 2 ^ 32 else v / 2 ^ 32

/-- A counter of the register map, read at its LO or its HI word. -/
def ctrAt (c : Core) (base a : Nat) : Nat := wideAt (ctrv c base) base a

/-- Word k of the bytes of a number. -/
def wordOf (x k : Nat) : Nat := x / 2 ^ (32 * k) % 2 ^ 32

/-- The read-only bits of a region-table word: the committed entry and PEND (R355). -/
def roRegion (c : Core) (a : Nat) : Nat :=
  let e := mget c.rgn ((a - 0x100) / 16) {}
  match a % 16 / 4 with
  | 0 => e.cur.base.toNat
  | 1 => e.cur.limit.toNat
  | 2 => e.cur.attr.toNat
  | _ => 2 * b2n e.pend + 256 * b2n e.wref

/-- The page at 0x0000_0000, below the persistence registers. -/
def roGlobal (s : State) (a : Nat) : Nat :=
  let c := s.core
  let v := c.volt
  if a = 0 then 0x53500020
  else if a = 4 then 0x00020100
  else if a = 8 ∨ a = 0xC then wideAt uidShown.toNat 8 a
  else if a = 0x10 then c.st.cur.ctorIdx + 16 * c.st.prev.ctorIdx
  else if 0x100 ≤ a ∧ a < 0x200 then roRegion c a
  else if a = 0x204 then v.speedR.toNat
  else if a = 0x208 then v.tempR.toNat
  else if a = 0x20C then v.marginR.toNat
  else if a = 0x280 then v.code + 2 ^ 24 * v.floor
  else if a = 0x300 then 4 * b2n s.snap.active + 8 * b2n s.snap.pending
  else 0

/-- NDR_PERS_* (R261). -/
def roPers (s : State) (a : Nat) : Nat :=
  let p := s.pers
  if a = 0x604 then p.result + 32 * b2n p.genOpen + 64 * b2n (s.core.st.cur == .flush) + 128 * b2n p.failed
  else if a = 0x608 then p.holdupMap.toNat + 2 ^ 16 * p.postedMap.toNat
  else if a = 0x60C then p.cnt0
  else if a = 0x610 then p.cnt1
  else if a = 0x614 then p.gen
  else if a = 0x618 then p.ticks
  else if a = 0x61C then ofBits ((List.range 16).filter (fun b => (bpGet s.core b).reported)) + 2 ^ 16 * ofBits (waitedFor s.core)
  else if 0x700 ≤ a ∧ a < 0x800 then
    match p.report with
    | some r => leVal (((recordBytes r).drop (a - 0x700)).take 4)
    | none => 0
  else 0

/-- DOM_* (R323), START_STAT, PWR_STAT and the start times (R486). -/
def roDom (s : State) (a : Nat) : Nat :=
  let d := s.core.dom
  let w := s.pwr
  if a = 0x800 then d.inst + 16 * b2n d.strap + 32 * b2n d.role + 64 * d.chanter + 1024 * b2n d.noChanter
  else if a = 0x804 then d.members.toNat + 2 ^ 16 * d.leaving.toNat
  else if a = 0x80C ∨ a = 0x810 then wideAt d.time.toNat 0x80C a
  else if a = 0x900 then b2n w.kind + 2 * w.fallback.toNat + 16 * w.slot.toNat + 256 * min w.calfail 15 + 4096 * b2n w.testMode
  else if a = 0x904 then 2 * b2n w.vddsWarn + 4 * b2n w.pwrfail
  else if a = 0x908 then w.tInit.toNat
  else if a = 0x90C then w.tReady.toNat
  else 0

/-- Mailboxes, Bells and locks (R369, R372, R376). A lock reads here as LIG_PEEK does. -/
def roControl (s : State) (a : Nat) : Nat :=
  if a < 0x10100 then
    let m := mbxGet s ((a - 0x10000) / 16)
    match a % 16 / 4 with
    | 0 => m.ptr.toNat % 2 ^ 32
    | 1 => m.ptr.toNat / 2 ^ 32
    | 2 => b2n m.full + 8 * b2n m.wpriv + 16 * b2n m.wsec + 32 * m.writer
    | _ => 0
  else if 0x10200 ≤ a ∧ a < 0x10280 then (if a % 0x20 = 0 then flagWord s.core.flags a else 0)
  else if 0x10400 ≤ a ∧ a < 0x10500 then
    let l := mget s.ctl.lig ((a - 0x10400) % 0x80 / 4) {}
    l.owner + 16 * b2n l.broken + 256 * l.dead
  else 0

/-- The Flue and the alarms (R436). FLUE_DATA reads here as the last value it returned. -/
def roFlue (c : Core) (a : Nat) : Nat :=
  let f := c.flue
  if a = 0x20000 then f.lastWord.toNat
  else if a = 0x20004 then f.tag.toNat
  else if a = 0x20008 then
    flueOcc f + 2 ^ 17 * b2n (decide (fld (regv c 0x2000C) 15 0 ≤ flueOcc f)) + 2 ^ 19 * b2n f.rb
  else if a = 0x20010 then f.lost.toNat
  else if a = 0x20014 then f.rewound
  else if a = 0x2010C then c.alarmFirst.bit + 32 * b2n c.alarmFirst.valid
  else if a = 0x20110 ∨ a = 0x20114 then wideAt c.alarmFirst.tick.toNat 0x20110 a
  else 0

/-- Pug (R202). -/
def roPug (c : Core) (a : Nat) : Nat :=
  let j := (a - 0x30000) / 0x40
  let o := a % 0x40
  if a = 0x30100 then 2 * b2n c.lcBusy + 4 * b2n c.lcOff
  else if 0x30100 ≤ a then 0
  else if o = 0x1C then b2n (mget c.pug j {}).busy
  else if o = 0x20 ∨ o = 0x24 then ctrAt c (pugBase j + 0x20) a
  else if o = 0x28 then ctrv c (pugBase j + 0x28) + 2 ^ 16 * ctrv c (pugBase j + 0x29)
  else if o = 0x2C then ctrv c (pugBase j + 0x2C)
  else 0

/-- An entry of the error log (R363, R364). -/
def roLog (c : Core) (e k : Nat) : Nat :=
  let l := mget c.log e {}
  match k with
  | 0 => l.addr % 2 ^ 32
  | 1 => l.addr / 2 ^ 32 % 2 ^ 16 + 2 ^ 16 * l.cat + 2 ^ 20 * l.kind + 2 ^ 23 * b2n l.avalid
  | 2 => l.unit + 2 ^ 7 * l.way + 2 ^ 11 * (l.set % 2 ^ 12)
  | 3 => b2n l.valid + 2 ^ 8 * l.seq
  | 4 => l.tick.toNat % 2 ^ 32
  | 5 => l.tick.toNat / 2 ^ 32
  | _ => 0

/-- Integrity, Fettler and Bisque (R364, R404, R418). -/
def roInt (s : State) (a : Nat) : Nat :=
  let c := s.core
  let b := s.bisq
  if a = 0x40008 then ((List.range 32).filter (fun e => (mget c.log e {}).valid)).length + 2 ^ 8 * ctrv c 0x40008
  else if 0x40100 ≤ a ∧ a < 0x40170 then ctrAt c (a / 8 * 8) a
  else if 0x40200 ≤ a ∧ a < 0x40240 then mget c.bkt ((a - 0x40200) / 4) 0
  else if 0x40800 ≤ a ∧ a < 0x40C00 then roLog c ((a - 0x40800) / 0x20) (a % 0x20 / 4)
  else if a = 0x41004 then ctrv c 0x41004
  else if a = 0x41008 then
    let f := s.fet
    f.cat + 16 * (if f.cat = 3 ∨ f.cat = 8 ∨ f.cat = 9 then 0x3F else f.unit) + 2 ^ 10 * f.index
  else if a = 0x4100C then ctrv c 0x4100C
  else if a = 0x42004 then
    let m := match b.migr with
      | some (_, f, t) => 2 ^ 8 + 2 ^ 9 * f + 2 ^ 15 * t
      | none => 0
    b.spare.getD 0x3F + 2 ^ 6 * (if b.spare.isNone then 2 else b2n b.testing) + m + 2 ^ 21 * b2n (b.walk != [])
  else if a = 0x42008 then ctrv c 0x42008 + 2 ^ 16 * ctrv c 0x4200A + 2 ^ 24 * ctrv c 0x4200B
  else if a = 0x4200C ∨ a = 0x42010 then wideAt (ofBits c.out) 0x4200C a
  else 0

/-- TARGET and REQ of ARB_SEL, where they name a requester (R290). -/
def arbSel (c : Core) : Option (Nat × Nat) :=
  let v := regv c 0x51000
  let t := fld v 5 0
  let q := fld v 13 6
  if (t < 16 ∧ q < 132) ∨ (16 ≤ t ∧ t < 49 ∧ q < 6) then some (t, q) else none

/-- Key of the selected requester's counters. -/
def arbSelKey (t q : Nat) : Nat := if t < 16 then arbKey t q else bankKey (t - 16) q

/-- The signed counter of the selected requester. -/
def arbCredit (c : Core) (t q : Nat) : Int := if t < 16 then mget (bpGet c t).ctrs q 0 else (mget c.arb (arbSelKey t q) {}).credit

/-- The arbiter registers (R290). -/
def roArb (c : Core) (a : Nat) : Nat :=
  match arbSel c with
  | none => 0
  | some (t, q) =>
    let x := mget c.arb (arbSelKey t q) {}
    let k := boundAt t q
    if a = 0x51004 then weightOf c t q + 2 ^ 8 * c.pol.bounds.getD k 0 + 2 ^ 16 * c.pol.bounds.getD (k + 1) 255
    else if a = 0x51008 then (BitVec.ofInt 16 (arbCredit c t q)).toNat
    else if a = 0x5100C ∨ a = 0x51010 then wideAt x.grants 0x5100C a
    else if a = 0x51014 ∨ a = 0x51018 then wideAt x.waits 0x51014 a
    else if a = 0x5101C then x.maxWait
    else 0

/-- The registers of a B-port (R268, R289). -/
def roBp (c : Core) (a : Nat) : Nat :=
  let b := (a - 0x50000) / 0x100
  let x := bpGet c b
  let o := a % 0x100
  if o = 4 then
    b2n x.ready + 2 * b2n x.scanning + 4 * b2n x.boundValid + 2 ^ 7 * b2n x.closed + 2 ^ 8 * x.scan.toNat +
      2 ^ 25 * b2n x.stopped
  else if o = 8 then x.bound.toNat
  else if o = 0x10 then
    let dead := x.deadTags.filter (fun t => t < 0x400)
    (c.reads.filter (fun r => r.port == b && r.st == .out)).length + dead.length +
      2 ^ 16 * ((c.bundles.filter (fun y => y.port == b && (y.st == .started || y.st == .sent))).length +
        (x.deadTags.length - dead.length)) + 2 ^ 24 * (bHeads x).length
  else if o = 0x14 ∨ o = 0x18 then ctrAt c (bpPage b + 0x14) a
  else if o = 0x1C ∨ o = 0x20 ∨ o = 0x24 then ctrv c a
  else if 0x40 ≤ o ∧ o < 0x80 then (x.hlth.getD ((o - 0x40) / 4) 0).toNat
  else 0

/-- The fabric (R343). -/
def roFab (c : Core) (a : Nat) : Nat :=
  let f := c.fabric
  let sel := regv c 0x60040
  let i := fld sel 4 0
  let k := fld sel 6 5
  if a = 0x6000C then ctrv c 0x6000C + 2 ^ 8 * ctrv c 0x6000D + 2 ^ 16 * ctrv c 0x6000E + 2 ^ 24 * ctrv c 0x6000F
  else if a = 0x60010 then
    b2n f.quiesce + 2 * f.links.length + 2 ^ 8 * f.routers.length + 2 ^ 15 * b2n f.detour + 2 ^ 16 * ctrv c 0x60012
  else if 0x60020 ≤ a ∧ a < 0x60030 then wordOf (ofBits f.links) ((a - 0x60020) / 4)
  else if a = 0x60044 ∨ a = 0x60048 then wideAt (mget c.hist (injKey i) 0) 0x60044 a
  else if a = 0x6004C ∨ a = 0x60050 then wideAt (mget c.hist (ejKey i) 0) 0x6004C a
  else if 0x60080 ≤ a ∧ a < 0x600C0 then (if k = 3 then 0 else mget c.hist ((i * 4 + k) * 16 + (a - 0x60080) / 4) 0)
  else 0

/-- Trill of a C- or D-port (R205). -/
def roTrill (c : Core) (ep a : Nat) : Nat :=
  let o := a % 0x1000
  if o = 0x304 then ((mget c.trill ep []).filter (fun d => decide (2 ≤ d.conf))).length
  else if o = 0x308 ∨ o = 0x30C then ctrAt c (portPage ep + 0x308) a
  else 0

/-- Internal tags held after an ingress timeout. -/
def expiredTags (l : List Tag) : Nat := (l.filter (fun t => t.phase == .expired)).length

/-- A CPT page (R359, R205). -/
def roCpt (c : Core) (p a : Nat) : Nat :=
  let x := cpGet c p
  let o := a % 0x1000
  if o = 0 then b2n x.closed + 2 * b2n x.stopped
  else if o = 4 then ctrv c a
  else if o = 8 then cOut x + 2 ^ 16 * expiredTags x.tags
  else roTrill c (epC p) a

/-- A DPT page (R359, R205, R236). -/
def roDpt (c : Core) (d a : Nat) : Nat :=
  let x := dpGet c d
  let o := a % 0x1000
  if o = 0 then b2n x.closed + 2 * b2n x.stopped
  else if o = 8 then dOut x + 2 ^ 16 * expiredTags x.tags
  else if o = 0x404 then
    x.psb.length + 2 ^ 7 * b2n x.waiting.isSome + 2 ^ 8 * x.dlist.length + 2 ^ 16 * b2n x.granule.isSome
  else if o = 0x40C ∨ o = 0x410 then ctrAt c (0x9040C + 0x1000 * d) a
  else if o = 0x408 ∨ o = 0x414 ∨ o = 0x418 ∨ o = 0x41C then ctrv c a
  else roTrill c (epD d) a

/-- An SPT page (R323, R171). -/
def roSpt (c : Core) (n a : Nat) : Nat :=
  let x := spGet c n
  let g := gwGet c n
  let o := a % 0x1000
  if o = 0 then
    b2n x.up + 4 * b2n x.conflict + 8 * x.neighbour + 2 ^ 7 * b2n x.nbValid + 2 ^ 10 * b2n x.stopped
  else if o = 4 then ctrv c a
  else if o = 0x200 then (g.pf.filter (fun y => pState y.2.bits != 0)).length
  else if o = 0x204 ∨ o = 0x208 then ctrAt c (0x98204 + 0x1000 * n) a
  else if o = 0x20C ∨ o = 0x210 then ctrAt c (0x9820C + 0x1000 * n) a
  else if o = 0x214 then g.unfiltered.length
  else 0

/-- The set that is being swept, until the answers to its last line are in (R156). -/
def sweepOf (c : Core) (sl : Nat) : Option LostSet := c.arr.lost.find? (fun x => x.slice == sl && x.covered)

/-- Locations of a partition out of use, in either array that holds its copies (R159). -/
def sfGone (c : Core) (sl : Nat) : Nat :=
  (((c.arr.retired.filter (fun y => y.1 == 2 * physOf c sl || y.1 == 2 * physOf c (partnerOf sl) + 1)).map (fun y => y.2)).eraseDups).length

/-- Valid entries of a partition's home copy that satisfy a test. -/
def sfCount (c : Core) (sl : Nat) (p : BitVec 56 → Bool) : Nat :=
  (c.arr.sfHome.filter (fun y => y.1 / 65536 == sl && eState y.2.bits != 0 && p y.2.bits)).length

/-- The line-cache part of an SLC page (R206). -/
def roSlcLc (c : Core) (sl o a : Nat) : Nat :=
  let ph := physOf c sl
  let here := c.arr.lc.filter (fun y => y.1 / 32768 == ph)
  if o = 0x300 then
    (here.filter (fun y => y.2.use.isDirty && lcOwn c sl y.2)).length +
      2 ^ 16 * (here.filter (fun y => y.2.use == .mirror && lcOwn c (partnerOf sl) y.2)).length
  else if o = 0x304 then
    c.pol.b + 2 ^ 4 * c.arr.wcap + 2 ^ 8 * ((List.range 2048).foldl (fun n cs => min n (lcL c sl cs)) 7) + 2 ^ 11 * transitCount c sl
  else if o = 0x308 then
    (here.filter (fun y => y.2.use.isDirty && y.2.pin && lcOwn c sl y.2)).length +
      (c.arr.hold.filter (fun h => h.slice == sl && h.pinned)).length
  else if o = 0x30C then
    let ways := (c.arr.disWays.filter (fun y => y.1 == ph)).map (fun y => y.2)
    let locs := (c.arr.disabled.filter (fun y => y.1 == ph && !ways.contains y.2.2)).length
    min (locs + 2048 * ways.length) 4095 + 2 ^ 12 * ofBits ways
  else if o = 0x310 ∨ o = 0x314 then ctrv c a
  else 0

/-- The page of logical slice sl (R170, R206, R360). -/
def roSlc (c : Core) (sl a : Nat) : Nat :=
  let o := a % 0x10000
  let base := 0x100000 + 0x10000 * sl
  if o = 0 then physOf c sl + 2 ^ 6 * (roleOf c sl).ctorIdx + 2 ^ 9 * (if sl = 32 then 0x3F else partnerOf sl)
  else if o = 4 then poolFree c sl .general + 2 ^ 8 * poolFree c sl .writeback + 2 ^ 14 * poolFree c sl .internal
  else if 0x300 ≤ o ∧ o < 0x400 then roSlcLc c sl o a
  else if o = 0x400 then sfCount c sl (fun _ => true)
  else if o = 0x404 then sfCount c sl eVec
  else if o = 0x408 ∨ o = 0x40C then ctrAt c (base + 0x408) a
  else if o = 0x410 ∨ o = 0x414 then ctrAt c (base + 0x410) a
  else if o = 0x418 then ctrv c a
  else if o = 0x41C then
    min (sfGone c sl) 255 +
      2 ^ 8 * (c.arr.lost.filter (fun y => y.slice == sl && y.covered)).length + 2 ^ 17 * b2n (sweepOf c sl).isSome
  else if o = 0x420 then
    16 * c.pol.exactMax + 2 ^ 6 * c.pol.costMax + 2 ^ 13 * (match sweepOf c sl with | some x => x.set | none => 0)
  else 0

/-- The SAG window (R461). -/
def roSag (s : State) (a : Nat) : Nat :=
  let g := s.sag
  let o := a - 0x400000
  if o = 0 then
    b2n (g.sealed && g.signKey.isSome) + 2 * b2n g.loopOpen + 4 * g.cause + 16 * b2n g.present + 32 * b2n g.erasing +
      64 * b2n g.lpRun + 128 * b2n g.inletFault + 256 * b2n g.nportFault + 512 * b2n (g.debugOpen != 0)
  else if o = 4 then
    (List.range 16).foldl (fun n k => n + 4 ^ k * (match mget g.keyRecs k .empty with
      | .empty => 0
      | .bypass => 1
      | .key _ => 2)) 0
  else if o = 8 then g.reseals % 2 ^ 16 + 2 ^ 16 * min (g.meters.foldl (fun n x => n + x.2.torn) 0) 0xFFFF
  else if o = 0xC then g.lpVer.toNat
  else if 0x100 ≤ o ∧ o < 0x140 then wordOf (match g.signKey with | some k => k.toNat | none => 0) ((o - 0x100) / 4)
  else if 0x200 ≤ o ∧ o < 0x260 then (Config.kaPub ((o - 0x200) / 4)).toNat
  else if 0x300 ≤ o ∧ o < 0x320 then wordOf g.nonce.toNat ((o - 0x300) / 4)
  else 0

/-- The bits of the register at an offset that Nderam alone writes. -/
def roBits (s : State) (a : Nat) : Nat :=
  let c := s.core
  if a < 0x600 then roGlobal s a
  else if a < 0x800 then roPers s a
  else if a < 0x10000 then roDom s a
  else if a < 0x20000 then roControl s a
  else if a < 0x30000 then roFlue c a
  else if a < 0x40000 then roPug c a
  else if a < 0x50000 then roInt s a
  else if a < 0x51000 then roBp c a
  else if a < 0x52000 then roArb c a
  else if a < 0x60000 then 0
  else if a < 0x70000 then roFab c a
  else if a < 0x80000 then 0
  else if a < 0x90000 then roCpt c ((a - 0x80000) / 0x1000) a
  else if a < 0x98000 then roDpt c ((a - 0x90000) / 0x1000) a
  else if a < 0x9C000 then roSpt c ((a - 0x98000) / 0x1000) a
  else if a < 0x100000 then 0
  else if a < 0x310000 then roSlc c ((a - 0x100000) / 0x10000) a
  else 0

/-! ### The counters of a snapshot (R352). -/

/-- The counter bits of the register at an offset. -/
def counterMask (a : Nat) : Nat :=
  let all := 0xFFFFFFFF
  let o := a % 0x1000
  if a % 4 ≠ 0 then 0
  else if a = 0x20010 then all
  else if a = 0x20014 then 0xFFFF
  else if 0x30000 ≤ a ∧ a < 0x30100 then (if 0x20 ≤ a % 0x40 ∧ a % 0x40 < 0x30 then all else 0)
  else if a = 0x40008 then 0xFFFF00
  else if 0x40100 ≤ a ∧ a < 0x40170 then all
  else if a = 0x41004 then 0xFFFF
  else if a = 0x4100C ∨ a = 0x42008 then all
  else if 0x50000 ≤ a ∧ a < 0x51000 then (if 0x14 ≤ a % 0x100 ∧ a % 0x100 < 0x28 then all else 0)
  else if 0x51008 ≤ a ∧ a < 0x51020 then all
  else if a = 0x6000C then all
  else if a = 0x60010 then 0xFFFF0000
  else if 0x60044 ≤ a ∧ a < 0x60054 then all
  else if 0x60080 ≤ a ∧ a < 0x600C0 then all
  else if 0x80000 ≤ a ∧ a < 0x98000 then
    if o = 0x308 ∨ o = 0x30C ∨ (o = 4 ∧ a < 0x90000) then all
    else if 0x90000 ≤ a ∧ o = 0x408 then 0xFF00
    else if 0x90000 ≤ a ∧ 0x414 ≤ o ∧ o < 0x420 then all else 0
  else if 0x98000 ≤ a ∧ a < 0x9C000 then (if o = 4 ∨ (0x204 ≤ o ∧ o < 0x214) then all else 0)
  else if 0x100000 ≤ a ∧ a < 0x310000 then
    let q := a % 0x10000
    if q = 0x310 ∨ q = 0x314 ∨ (0x408 ≤ q ∧ q < 0x41C) then all else 0
  else 0

/-- The words of register space that hold counters. -/
def counterOffs : List Nat :=
  let pages := fun (base step n lo k : Nat) => (List.range n).flatMap (fun i => (List.range k).map (fun j => base + step * i + lo + 4 * j))
  [0x20010, 0x20014, 0x40008, 0x41004, 0x4100C, 0x42008, 0x6000C, 0x60010] ++ pages 0x30000 0x40 4 0x20 4 ++ pages 0x40100 8 14 0 2 ++
    pages 0x50000 0x100 16 0x14 5 ++ pages 0x51008 0 1 0 6 ++ pages 0x60044 0 1 0 4 ++ pages 0x60080 0 1 0 16 ++
    pages 0x80000 0x1000 16 4 1 ++ pages 0x80000 0x1000 24 0x308 2 ++ pages 0x90000 0x1000 8 0x408 1 ++ pages 0x90000 0x1000 8 0x414 3 ++
    pages 0x98000 0x1000 4 4 1 ++ pages 0x98000 0x1000 4 0x204 4 ++ pages 0x100000 0x10000 33 0x310 2 ++ pages 0x100000 0x10000 33 0x408 5

/-- The capture (R352). -/
def capture (s : State) : State :=
  if s.snap.pending then
    let ws := counterOffs.foldl (fun m a => mput m a (wd (roBits s a &&& counterMask a))) []
    { s with snap := { active := true, pending := false, words := ws, arbSel := s.snap.arbSel
                       fabSel := s.snap.fabSel } }
  else s

/-- The captured word of a counter register, if the snapshot holds it (R352). -/
def captured (s : State) (a : Nat) : Option Word :=
  let c := s.core
  let arb := decide (0x51008 ≤ a) && decide (a < 0x51020) && fld (regv c 0x51000) 13 0 != fld s.snap.arbSel 13 0
  let flits := decide (0x60044 ≤ a) && decide (a < 0x60054) && fld (regv c 0x60040) 4 0 != fld s.snap.fabSel 4 0
  let hist := decide (0x60080 ≤ a) && decide (a < 0x600C0) && fld (regv c 0x60040) 6 0 != fld s.snap.fabSel 6 0
  if !s.snap.active || arb || flits || hist then none else mfind? s.snap.words a

/-- A register of the region table (R355). -/
def isRgn (a : Nat) : Bool := decide (0x100 ≤ a) && decide (a < 0x200)

/-- An RGN_CMD register. -/
def isRgnCmd (a : Nat) : Bool := isRgn a && decide (a % 16 = 12)

/-- The true value of the register at an offset (R7): what software wrote, the flags, and what Nderam alone writes or counts. -/
def regTrue (s : State) (a : Nat) : Word :=
  let c := s.core
  let i := regInfo a
  let soft := if isRgn a && !isRgnCmd a then 0 else (regv c a).toNat &&& (i.rw ||| (if isRgnCmd a then 0 else i.rwp) ||| i.rsv)
  let ro := match captured s a with
    | some w => (roBits s a &&& (0xFFFFFFFF - counterMask a)) ||| w.toNat
    | none => roBits s a
  wd (soft ||| (flagWord c.flags a &&& i.w1c) ||| ro)

/-! ### Who may reach what (R345). -/

/-- Packet RAM (R344). -/
def isRam (a : Nat) : Bool := decide (0x800000 ≤ a) && decide (a < 0x840000)

/-- The SAG read window (R344, R461). -/
def isSag (a : Nat) : Bool := decide (0x400000 ≤ a) && decide (a < 0x410000)

/-- What LP reaches: the SAG window, mailboxes 12 to 15 and the locks (R345). -/
def lpMay (a : Nat) : Bool := isSag a || (decide (0x100C0 ≤ a) && decide (a < 0x10100)) || (decide (0x10400 ≤ a) && decide (a < 0x10500))

/-- The access is refused to LP (R345). -/
def lpRefused (m : Master) (a : Nat) : Bool := m == .lp && !lpMay a

/-- The master is there to make an access: the M-port and the D-ports in every state but OFF, a processor while it runs (R18, R464). -/
def masterLive (s : State) (m : Master) : Bool :=
  s.core.st.cur != .off && match m with
    | .host _ _ => true
    | .direct _ _ _ => true
    | .cp => s.ctl.up && !s.ctl.down.contains 0
    | .hp => s.ctl.up && !s.ctl.down.contains 1
    | .tp => s.ctl.up && !s.ctl.down.contains 2
    | .lp => s.sag.lpRun

/-- The receiver of a mailbox (R365): CP for 0 to 7, host software for 8 to 11, and for 12 to 15 the processor that firmware names. -/
def isReceiver (mb : Nat) (m : Master) : Bool :=
  if mb < 8 then m == .cp
  else if mb < 12 then ownerOf m < 10
  else ownerOf m == 10 + (Config.mailboxTo mb).val

/-- A read of PTR_HI (R367, R379, R380): the receiver's read clears FULL; CP then carries on with the packet; a host bank's reply that
waits goes in. -/
def takePtr (s : State) (mb : Nat) (m : Master) : State :=
  let x := mbxGet s mb
  if !x.full || !isReceiver mb m then s
  else if mb < 8 then
    if !cpTakes s then s
    else
      let s := mbxMod s mb (fun y => { y with full := false })
      cmdTake (withCore s (fun c => ring c (mb / 2) 1)) mb x.ptr (x.wpriv && x.wsec)
  else
    let s := mbxMod s mb (fun y => { y with full := false })
    if mb < 12 then replyOut s (mb - 8) else s

/-- A read of LIG wins a free lock, and then clears BROKEN and DEAD (R370, R372). -/
def takeLock (s : State) (k : Nat) (m : Master) : State :=
  if (mget s.ctl.lig k {}).owner = 0 then withCtl s (fun t => { t with lig := mput t.lig k { owner := ownerOf m } }) else s

/-- A read of SAG while VDDS is out of range: the spec gives no value, so it is free (R451, R461). -/
def sagRead (s : State) (a : Nat) : Word × State :=
  if s.pwr.vddsUp then (wd (roSag s a), s)
  else
    let k := takeFree s.core
    (Config.sagOff k.1, { s with core := k.2 })

/-- A read of register space by a master: the value, whether it carries the M-port's error response, and what the read changes (R8, R344
to R348). -/
def regRead (s : State) (m : Master) (a : Nat) : Word × Bool × State :=
  if lpRefused m a then (0, false, withCore s (fun c => refusedAccess c m a false))
  else if isRam a then
    let bad := ramBad s (a - 0x800000) 4
    (memWord s.pram (a - 0x800000), bad, if bad then ramError s else s)
  else if isSag a then let r := sagRead s a; (r.1, false, r.2)
  else if a = 0x20000 then let r := flueRead s.core; (r.1, false, { s with core := r.2 })
  else
    let v := regTrue s a
    let p := (regInfo a).rwp
    if p ≠ 0 ∧ masterBoth m = false then (v &&& ~~~ wd p, false, withCore s (fun c => refusedAccess c m a false))
    else if 0x10000 ≤ a ∧ a < 0x10100 ∧ a % 16 = 4 then (v, false, takePtr s ((a - 0x10000) / 16) m)
    else if 0x10400 ≤ a ∧ a < 0x10480 then (v, false, takeLock s ((a - 0x10400) / 4) m)
    else (v, false, s)

end Sys2Proof.Machine
end

