-- ==== Sys2Proof/Machine/RegWrite.lean ====
section
/-! DEFINITION. What a write to register space does (R7 to R9, R345 to R350, R355 to R358, R364 to R376, R418): the fields that software
writes, W1C bits, reserved bits, and the action of every WO field; then the commands that are such accesses. -/

namespace Sys2Proof.Machine

/-! ### Region table (R257, R279, R355). -/

/-- A staging word of entry r takes new bits; while PEND = 1 the write is ignored and reported (R355). -/
def rgnStage (c : Core) (r k : Nat) (mask v : Word) (owner off : Nat) : Core :=
  let e := mget c.rgn r {}
  let mix := fun (x : Word) => (x &&& ~~~ mask) ||| (v &&& mask)
  if e.pend then writeIgnored c owner off 3
  else
    let g := match k with
      | 0 => { e.stage with base := mix e.stage.base }
      | 1 => { e.stage with limit := mix e.stage.limit }
      | _ => { e.stage with attr := mix e.stage.attr }
    { c with rgn := mput c.rgn r { e with stage := g } }

/-- The commit changes type, mode, base or limit, and so needs an OPEN record while a generation is open (R257). -/
def needsRecord (e : Region) : Bool :=
  e.stage.base != e.cur.base || e.stage.limit != e.cur.limit || fld e.stage.attr 2 0 != fld e.cur.attr 2 0

/-- COMMIT = 1 (R257, R355). -/
def commit (s : State) (r owner : Nat) : State :=
  let e := mget s.core.rgn r {}
  if s.core.st.cur = .flush ∨ s.core.st.cur = .halt then withCore s (fun c => writeIgnored c owner (0x10C + 0x10 * r) 3)
  else if e.pend then s
  else if s.pers.genOpen && needsRecord e then
    nextCommit { s with core := { s.core with rgn := mput s.core.rgn r { e with pend := true } }
                        pers := { s.pers with commits := s.pers.commits ++ [r] } }
  else withCore s (fun c => commitNow c r)

/-- WREF is written (R279, R355): 1 refuses writes without pinning; 0 clears the flag and releases the region's pinned lines, unless Nderam
has set it in the same tick. -/
def wrefWrite (c : Core) (r : Nat) (v : Bool) : Core :=
  let e := mget c.rgn r {}
  if v then { c with rgn := mput c.rgn r { e with wref := true } }
  else if e.wref && e.wrefSetAt == now c + 1 then
    hwSet { c with rgn := mput c.rgn r { e with wrefClrAt := now c + 1 } } (0x10C + 0x10 * r) 9
  else unpin { c with rgn := mput c.rgn r { e with wref := false, wrefClrAt := now c + 1 } } (fun line => rgnIndex c line == some r)

/-! ### Pug and the line cache (R194, R196, R200, R201). -/

/-- A line address from the LO and HI words of a Pug register pair. -/
def pugLineAt (c : Core) (j o : Nat) : Nat :=
  ((regv c (pugBase j + o)).toNat + 2 ^ 32 * fld (regv c (pugBase j + o + 4)) 15 0) / 64

/-- START = 1 (R200). -/
def pugStart (c : Core) (j owner : Nat) (both : Bool) : Core :=
  let p := mget c.pug j {}
  let ty := fld (regv c (pugBase j + 0x18)) 2 0
  if !both || p.busy || decide (6 ≤ ty) then writeIgnored c owner (pugBase j + 0x18) 6
  else
    let lo := pugLineAt c j 0
    let hi := pugLineAt c j 8
    let pat := (regv c (pugBase j + 0x14)) ++ (regv c (pugBase j + 0x10))
    let c := [0x20, 0x28, 0x29, 0x2C].foldl (fun c o => ctrSet c (pugBase j + o) 0) c
    let job : PugJob := {
      busy := true, typ := ty, next := lo, limit := hi, pat := pat, issued := decide (hi < lo), lastIssue := now c, serial := p.serial }
    let c := { c with pug := mput c.pug j job }
    if hi < lo then pugEnd (hwSet c (pugBase j + 0x1C) 3) j else c

/-- ABORT = 1 (R200, R201). -/
def pugAbort (c : Core) (j owner : Nat) (both : Bool) : Core :=
  let p := mget c.pug j {}
  if !both then writeIgnored c owner (pugBase j + 0x18) 6
  else if p.busy then pugEnd { c with pug := mput c.pug j { p with aborting := true } } j
  else c

/-- The WO fields of PUG_CTRL. -/
def pugActs (c : Core) (j owner : Nat) (both : Bool) (v : Word) : Core :=
  let c := if v.getLsbD 3 then pugStart c j owner both else c
  if v.getLsbD 4 then pugAbort c j owner both else c

/-- LC_EN is written (R194 to R196). -/
def lcEnWrite (c : Core) (v : Bool) : Core :=
  if v then
    if c.lcBusy then { c with lcReen := true }
    else if c.lcOff then { c with lcStop := false, lcOff := false }
    else c
  else if c.lcStop then { c with lcReen := false }
  else lcWalk { c with lcStop := true, lcBusy := true, lcReen := false }

/-! ### Mailboxes, Bells and locks (R365 to R376). -/

/-- The master may write a mailbox (R365). -/
def isSender (mb : Nat) (m : Master) : Bool :=
  if mb < 8 then ownerOf m < 10 else if mb < 12 then m == .cp else decide (10 ≤ ownerOf m)

/-- A processor's Bell rings; LP takes a ring from CP only (R375). -/
def ringFor (c : Core) (p bit owner off : Nat) : Core :=
  if p = 3 ∧ owner ≠ 10 then writeIgnored c owner off 7 else ringProc c p bit

/-- A mailbox becomes FULL: its receiver's Bell rings (R365). -/
def ringFull (c : Core) (mb owner off : Nat) : Core :=
  if mb < 8 then ringProc c 0 mb
  else if mb < 12 then ring c (mb - 8) 0
  else ringFor c (Config.mailboxTo mb).val mb owner off

/-- A write to a mailbox's PTR_LO or PTR_HI (R365, R366). -/
def mbxWrite (s : State) (mb : Nat) (hi : Bool) (m : Master) (v : Word) (off : Nat) : State :=
  let x := mbxGet s mb
  let o := ownerOf m
  if !isSender mb m then withCore s (fun c => writeIgnored c o off 5)
  else if x.full then withCore s (fun c => writeIgnored (hwSet c (0x10008 + 0x10 * mb) 1) o off 4)
  else if !hi then mbxMod s mb (fun y => { y with lo := v })
  else
    let s := mbxMod s mb (fun y =>
      { y with ptr := v ++ y.lo, full := true, wpriv := masterPriv m, wsec := masterSec m, writer := o })
    withCore s (fun c => ringFull c mb o off)

/-- FORCE and RELEASE of a lock (R371, R372). -/
def ligWrite (s : State) (k : Nat) (m : Master) (v : Word) (off : Nat) : State :=
  let l := mget s.ctl.lig k {}
  let s :=
    if !v.getLsbD 30 then s
    else if !masterBoth m then withCore s (fun c => refusedAccess c m off true)
    else if l.owner = 0 then s
    else withCtl s (fun t => { t with lig := mput t.lig k { owner := 0, broken := true, dead := l.owner } })
  let l := mget s.ctl.lig k {}
  if !v.getLsbD 31 then s
  else if l.owner = ownerOf m then withCtl s (fun t => { t with lig := mput t.lig k { l with owner := 0 } })
  else withCore s (fun c => writeIgnored c (ownerOf m) off 5)

/-- BELL_SET (R373) and BELL_CLR (R376). -/
def bellWrite (c : Core) (i k : Nat) (v : Word) : Core :=
  if k = 2 then [28, 29, 30, 31].foldl (fun c b => if v.getLsbD b then ring c i b else c) c
  else if k = 3 then (List.range 32).foldl (fun c b => if v.getLsbD b then swClr c (bellBase i) b else c) c
  else c

/-! ### The other WO fields. -/

/-- A reading as the 16 bits that a register shows. -/
def coneBits (x : Option Int) : BitVec 16 := BitVec.ofInt 16 (x.getD 0)

/-- CONE_SEL latches the selected monitor's readings (R358). -/
def coneLatch (c : Core) : Core :=
  let m := fld (regv c 0x200) 5 0
  let v := c.volt
  if 40 < m then { c with volt := { v with speedR := 0, tempR := 0, marginR := 0 } }
  else { c with volt := { v with speedR := mget v.speed m 0, tempR := mget v.temp m 0
                                 marginR := coneBits ((mfind? v.speed m).map (fun x => marginOf m x.toNat)) } }

/-- SNAP and RELEASE (R352). -/
def snapWrite (s : State) (v : Word) : State :=
  let s := if v.getLsbD 1 then { s with snap := { s.snap with active := false, pending := false, words := [] } } else s
  if v.getLsbD 0 then
    { s with snap := { s.snap with active := false, pending := true, words := [], arbSel := regv s.core 0x51000
                                   fabSel := regv s.core 0x60040 } }
  else s

/-- ARB_CLR (R290). -/
def arbClear (c : Core) : Core :=
  match arbSel c with
  | some (t, q) => { c with arb := mmod c.arb (arbSelKey t q) {} (fun a => { a with grants := 0, waits := 0, maxWait := 0 }) }
  | none => c

/-- FAB_CLR (R343). -/
def fabClear (c : Core) : Core :=
  let i := fld (regv c 0x60040) 4 0
  { c with hist := c.hist.filter (fun x => !(x.1 / 64 == i && decide (x.1 < 100000)) && x.1 != injKey i && x.1 != ejKey i) }

/-- Clearing ERR clears STAT, COUNT and DPT_FENCE_ADDR (R236). -/
def fenceErrClear (c : Core) (a : Nat) : Core := if flagv c a 0 then c else ctrSet (ctrSet c a 0) (a + 4) 0

/-- What else a write does, by register, after its fields and W1C bits have changed. -/
def regActs (s : State) (m : Master) (a : Nat) (v : Word) : State :=
  let both := masterBoth m
  let o := ownerOf m
  let onC := fun (f : Core → Core) => withCore s f
  if a = 0x200 then onC coneLatch
  else if a = 0x280 then onC codeSet
  else if a = 0x300 then snapWrite s v
  else if 0x100 ≤ a ∧ a < 0x200 ∧ a % 16 = 12 then
    let r := (a - 0x100) / 16
    let s := if both then onC (fun c => wrefWrite c r (v.getLsbD 8)) else s
    if v.getLsbD 0 then commit s r o else s
  else if 0x10000 ≤ a ∧ a < 0x10100 ∧ a % 16 < 8 then mbxWrite s ((a - 0x10000) / 16) (decide (a % 16 = 4)) m v a
  else if 0x10200 ≤ a ∧ a < 0x10280 then onC (fun c => bellWrite c ((a - 0x10200) / 0x20) (a % 0x20 / 4) v)
  else if 0x10400 ≤ a ∧ a < 0x10480 then ligWrite s ((a - 0x10400) / 4) m v a
  else if a = 0x20100 then
    onC (fun c => if flagWord c.flags 0x20100 = 0 then { c with alarmFirst := { c.alarmFirst with valid := false } } else c)
  else if 0x30000 ≤ a ∧ a < 0x30100 ∧ a % 0x40 = 0x18 then onC (fun c => pugActs c ((a - 0x30000) / 0x40) o both v)
  else if a = 0x30100 then (if both then onC (fun c => lcEnWrite c (v.getLsbD 0)) else s)
  else if 0x40800 ≤ a ∧ a < 0x40C00 ∧ a % 0x20 = 0xC then
    (if v.getLsbD 0 then onC (fun c => { c with log := mmod c.log ((a - 0x40800) / 0x20) {} (fun e => { e with valid := false }) }) else s)
  else if a = 0x42000 then (if v.getLsbD 11 then rotateNext s else s)
  else if a = 0x51020 then (if v.getLsbD 0 then onC arbClear else s)
  else if a = 0x60054 then (if v.getLsbD 0 then onC fabClear else s)
  else if 0x90000 ≤ a ∧ a < 0x98000 ∧ a % 0x1000 = 0x408 then (if v.getLsbD 0 then onC (fun c => fenceErrClear c a) else s)
  else s

/-! ### The fields. -/

/-- The software-written bits as they stand: of a region-table word, its staging copy and WREF. -/
def regHeld (c : Core) (a : Nat) : Word :=
  if 0x100 ≤ a ∧ a < 0x200 then
    let e := mget c.rgn ((a - 0x100) / 16) {}
    match a % 16 / 4 with
    | 0 => e.stage.base
    | 1 => e.stage.limit
    | 2 => e.stage.attr
    | _ => wd (256 * b2n e.wref)
  else regv c a

/-- Bits that may not be written now: BASE, LIMIT, PAT and TYPE of a running Pug job (R200). -/
def lockedBits (c : Core) (a : Nat) : Nat :=
  if 0x30000 ≤ a ∧ a < 0x30100 ∧ (mget c.pug ((a - 0x30000) / 0x40) {}).busy = true then (if a % 0x40 = 0x18 then 7 else 0xFFFFFFFF) else 0

/-- The fields of the register take the value written (R7, R347). WREF of RGN_CMD is written as its own action (R355). -/
def regFields (c : Core) (m : Master) (a : Nat) (v : Word) : Core :=
  let i := regInfo a
  let own := if masterBoth m ∧ !isRgnCmd a then i.rw ||| i.rsv ||| i.rwp else i.rw ||| i.rsv
  let mask := wd (own &&& (0xFFFFFFFF - lockedBits c a))
  if 0x100 ≤ a ∧ a < 0x200 ∧ a % 16 < 12 then rgnStage c ((a - 0x100) / 16) (a % 16 / 4) mask v (ownerOf m) a
  else if mask = 0 then c
  else regSet c a ((regv c a &&& ~~~ mask) ||| (v &&& mask))

/-- W1C bits written as 1 clear (R7, R350). -/
def regClears (c : Core) (a : Nat) (v : Word) : Core :=
  (bitsOf ((regInfo a).w1c &&& v.toNat) 32).foldl (fun c b => swClr c a b) c

/-- The write would change an RW-P field and its master lacks PRIV or SECURE (R8, R347). -/
def rwpRefused (c : Core) (m : Master) (a : Nat) (v : Word) : Bool :=
  !masterBoth m && ((regHeld c a ^^^ v) &&& wd (regInfo a).rwp) != 0

/-- The write gives a reserved bit another value than it reads (R9). Nderam firmware may do so in SERVICE (R348). -/
def rsvChanged (c : Core) (m : Master) (a : Nat) (v : Word) : Bool :=
  let stands := if isRgn a && !isRgnCmd a then wd (roRegion c a) else regv c a
  let fw := (m == .cp || m == .hp || m == .tp) && c.st.cur == .service
  !fw && (((stands ^^^ v) &&& wd (regInfo a).rsv) != 0 || (v &&& wd (regInfo a).wo) != 0)

/-- The write of a mailbox register by a master that is not its sender is ignored as a whole (R365). -/
def mbxForeign (m : Master) (a : Nat) : Bool :=
  decide (0x10000 ≤ a) && decide (a < 0x10100) && decide (a % 16 < 12) && !isSender ((a - 0x10000) / 16) m

/-- The write of BP_WIN is ignored: its port's reset is deasserted (R263). -/
def winShut (c : Core) (a : Nat) : Bool :=
  decide (0x50000 ≤ a) && decide (a < 0x51000) && decide (a % 0x100 = 0) && !(bpGet c ((a - 0x50000) / 0x100)).resetIn

/-- A write takes effect on a register (R7). -/
def regTakes (s : State) (m : Master) (a : Nat) (v : Word) : State :=
  let s := if rwpRefused s.core m a v then withCore s (fun c => refusedAccess c m a true) else s
  regActs (withCore s (fun c => regClears (regFields c m a v) a v)) m a v

/-- A write to register space by a master (R7 to R9, R344 to R350). -/
def regWrite (s : State) (m : Master) (a : Nat) (v : Word) : Host.Outcome State Fault Refusal :=
  if lpRefused m a then .next (withCore s (fun c => refusedAccess c m a true))
  else if isRam a then .next (ramWrite s (a - 0x800000) (leBytes v.toNat 4))
  else if isSag a then .next (withCore s (fun c => writeIgnored c (ownerOf m) a (Config.openReason % 256)))
  else if mbxForeign m a then .next (withCore s (fun c => writeIgnored c (ownerOf m) a 5))
  else if rsvChanged s.core m a v then .fault .reservedBitWritten
  else if winShut s.core a then .next (withCore s (fun c => writeIgnored c (ownerOf m) a 2))
  else .next (regTakes s m a v)

/-! ### Accesses as commands (R345, R346, R464). -/

/-- The M-port answers an access (R464). -/
def mAnswer (s : State) (m : Master) (v : Option Word) (err : Bool) : State :=
  match m with
  | .host _ _ => { s with mport := { rsp := true, rdata := v.getD s.mport.rdata, err := err } }
  | _ => s

/-- An aligned 32-bit write with every byte enable set. -/
def doWrite (s : State) (m : Master) (a : Nat) (v : Word) : Host.Outcome State Fault Refusal :=
  if masterLive s m then
    match regWrite s m (a / 4 * 4) v with
    | .next s' => .next (mAnswer s' m none false)
    | .fault f => .fault f
    | .refused r => .refused r
  else .next s

/-- An aligned 32-bit read. -/
def doRead (s : State) (m : Master) (a : Nat) : State :=
  if masterLive s m then
    let r := regRead s m (a / 4 * 4)
    mAnswer r.2.2 m (some r.1) r.2.1
  else s

/-- REGISTER_WRITE (R7). On the M-port a write whose byte enables are not all set is ignored (R345). -/
def execRegisterWrite (m : Master) (off : BitVec 24) (v : Word) (be : BitVec 4) (s : State) : Host.Outcome State Fault Refusal :=
  match m with
  | .host _ _ =>
    if be = 15 ∨ masterLive s m = false then doWrite s m off.toNat v
    else .next (mAnswer (withCore s (fun c => writeIgnored c 1 (off.toNat / 4 * 4) 1)) m none false)
  | _ => doWrite s m off.toNat v

/-- REGISTER_READ (R8). -/
def execRegisterRead (m : Master) (off : BitVec 24) (s : State) : Host.Outcome State Fault Refusal := .next (doRead s m off.toNat)

/-- COMMIT (R355). -/
def execCommit (m : Master) (r : Fin 16) (v : Word) (s : State) : Host.Outcome State Fault Refusal := doWrite s m (0x10C + 0x10 * r.val) v

/-- WREF_CLEAR (R279). -/
def execWrefClear (m : Master) (r : Fin 16) (v : Word) (s : State) : Host.Outcome State Fault Refusal :=
  doWrite s m (0x10C + 0x10 * r.val) v

/-- WREF_SET (R355). -/
def execWrefSet (m : Master) (r : Fin 16) (v : Word) (s : State) : Host.Outcome State Fault Refusal := doWrite s m (0x10C + 0x10 * r.val) v

/-- START (R200). -/
def execStart (m : Master) (j : Fin 4) (v : Word) (s : State) : Host.Outcome State Fault Refusal := doWrite s m (pugBase j.val + 0x18) v

/-- ABORT (R201). -/
def execAbort (m : Master) (j : Fin 4) (v : Word) (s : State) : Host.Outcome State Fault Refusal := doWrite s m (pugBase j.val + 0x18) v

/-- LC_DISABLE (R194). -/
def execLcDisable (m : Master) (v : Word) (s : State) : Host.Outcome State Fault Refusal := doWrite s m 0x30100 v

/-- LC_ENABLE (R196). -/
def execLcEnable (m : Master) (v : Word) (s : State) : Host.Outcome State Fault Refusal := doWrite s m 0x30100 v

/-- SNAP (R352). -/
def execSnap (m : Master) (v : Word) (s : State) : Host.Outcome State Fault Refusal := doWrite s m 0x300 v

/-- SNAP_RELEASE (R352). -/
def execSnapRelease (m : Master) (v : Word) (s : State) : Host.Outcome State Fault Refusal := doWrite s m 0x300 v

/-- PTR_HI_WRITE (R366). -/
def execPtrHiWrite (m : Master) (mb : Fin 16) (v : Word) (s : State) : Host.Outcome State Fault Refusal :=
  doWrite s m (0x10004 + 0x10 * mb.val) v

/-- PTR_HI_TAKE (R367). -/
def execPtrHiTake (m : Master) (mb : Fin 16) (s : State) : Host.Outcome State Fault Refusal := .next (doRead s m (0x10004 + 0x10 * mb.val))

/-- LIG (R370). -/
def execLig (m : Master) (k : Fin 32) (s : State) : Host.Outcome State Fault Refusal := .next (doRead s m (0x10400 + 4 * k.val))

/-- LIG_RELEASE (R371). -/
def execLigRelease (m : Master) (k : Fin 32) (s : State) : Host.Outcome State Fault Refusal :=
  doWrite s m (0x10400 + 4 * k.val) 0x80000000

/-- FORCE (R372). -/
def execForce (m : Master) (k : Fin 32) (s : State) : Host.Outcome State Fault Refusal := doWrite s m (0x10400 + 4 * k.val) 0x40000000

/-- BELL_SET (R373). -/
def execBellSet (m : Master) (bank : Fin 4) (v : Word) (s : State) : Host.Outcome State Fault Refusal :=
  doWrite s m (bellBase bank.val + 8) v

/-- BELL_CLR (R376). -/
def execBellClr (m : Master) (bank : Fin 4) (v : Word) (s : State) : Host.Outcome State Fault Refusal :=
  doWrite s m (bellBase bank.val + 0xC) v

/-- CONE_SEL (R358). -/
def execConeSel (m : Master) (v : Word) (s : State) : Host.Outcome State Fault Refusal := doWrite s m 0x200 v

/-- ARB_CLR (R290). -/
def execArbClr (m : Master) (v : Word) (s : State) : Host.Outcome State Fault Refusal := doWrite s m 0x51020 v

/-- FAB_CLR (R343). -/
def execFabClr (m : Master) (v : Word) (s : State) : Host.Outcome State Fault Refusal := doWrite s m 0x60054 v

/-- ROTATE (R418). -/
def execRotate (m : Master) (v : Word) (s : State) : Host.Outcome State Fault Refusal := doWrite s m 0x42000 v

/-- FLIP_MASK (R364). -/
def execFlipMask (m : Master) (v : Word) (s : State) : Host.Outcome State Fault Refusal := doWrite s m 0x40010 v

/-- BP_WIN (R263). -/
def execBpWin (m : Master) (b : Fin 16) (v : Word) (s : State) : Host.Outcome State Fault Refusal := doWrite s m (bpPage b.val) v

/-- FLUE_DATA (R429). -/
def execFlueData (m : Master) (s : State) : Host.Outcome State Fault Refusal := .next (doRead s m 0x20000)

/-! ### REG accesses of a D-port (R42, R218). -/

/-- Byte offset in register space of a REG access (R42). -/
def regOffset (r : Req) : Nat := r.line * 64 + 4 * ((firstFree 16 (fun g => !r.be.getLsbD (4 * g))).getD 0)

/-- The D-port issues the REG access that waits (R216, R218). A REG STORE completes once the write has taken effect. -/
def regAccess (s : State) (d : Fin 8) : Host.Outcome State Fault Refusal :=
  let c := s.core
  let x := dpGet c d.val
  match x.waiting with
  | none => .next s
  | some a =>
    if !a.req.reg || !dQuiet x || x.closed then .next s
    else
      let m : Master := .direct d a.req.priv a.req.sec
      let off := regOffset a.req
      let free := fun (c : Core) => dpMod c d.val (fun y => { y with waiting := none })
      if a.req.op = .load then
        let r := regRead s m off
        let data : Line := BitVec.ofNat 512 (r.1.toNat * 2 ^ (8 * (off % 64)))
        .next (withCore r.2.2 (fun c => dPump (dAnswer (free c) d.val a .ok (some data) false false) d.val))
      else
        match regWrite s m off (payWord a.req.data (off % 64 / 4)) with
        | .next s' => .next (withCore s' (fun c => dPump (dAnswer (free c) d.val a .ok none false false) d.val))
        | .fault f => .fault f
        | .refused r => .refused r

/-- REG_ACCESS (R218). -/
def execRegAccess (d : Fin 8) (s : State) : Host.Outcome State Fault Refusal :=
  if s.core.st.cur = .off then .next s else regAccess s d

end Sys2Proof.Machine
end

