-- ==== Sys2Proof/Machine/Commands.lean ====
section
/-! DEFINITION. The command set: the effect of each command that CP has taken (R386 to R396, R446, R457 to R459), domain barriers and
leaves, relayed commands and their answers (R312 to R321, R383), and the ends of the commands that run in the background. -/

namespace Sys2Proof.Machine

/-! ### Information (R388). -/

/-- NOP (R386). -/
def execNop (s : State) : Host.Outcome State Fault Refusal := onCmd s 0x01 (fun s x => cmdEnd s x csOK 0 [])

/-- The reply of GET_INFO (R388). -/
def infoReply (s : State) : List Byte :=
  let v := s.ctl.versions
  leBytes ndrVersion 4 ++ leBytes uidShown.toNat 8 ++ leBytes (regTrue s 0x10).toNat 4 ++ leBytes s.pers.gen 4 ++
    leBytes (regTrue s 0x800).toNat 4 ++ leBytes (v.getD 0 0).toNat 4 ++ leBytes (v.getD 1 0).toNat 4 ++ leBytes (v.getD 2 0).toNat 4 ++
    leBytes s.sag.lpVer.toNat 4 ++ leBytes 0 24

/-- GET_INFO (R388). -/
def execGetInfo (s : State) : Host.Outcome State Fault Refusal := onCmd s 0x02 (fun s x => cmdEnd s x csOK 0 (infoReply s))

/-- The reply of GET_POLICY (R388). -/
def policyReply (c : Core) : List Byte :=
  let p := c.pol
  p.bounds.flatMap (fun b => leBytes b 1) ++ p.health.flatMap (fun h => leBytes h 2) ++ leBytes p.b 1 ++ leBytes p.exactMax 1 ++
    leBytes p.costMax 1 ++ leBytes c.arr.wcap 1 ++ leBytes 0 28

/-- GET_POLICY (R388). -/
def execGetPolicy (s : State) : Host.Outcome State Fault Refusal := onCmd s 0x03 (fun s x => cmdEnd s x csOK 0 (policyReply s.core))

/-! ### Block states (R384, R385, R389, R390). -/

/-- QUIESCE (R389): REQ credits stop. -/
def execQuiesce (s : State) : Host.Outcome State Fault Refusal :=
  onCmd s 0x10 (fun s x => withCore (cmdPut s x { x with phase := 1 }) (fun c => { c with reqStop := true }))

/-- Every general and internal tracker entry is FREE and every posted-store buffer is empty (R389). -/
def allQuiet (c : Core) : Bool := c.arr.trk.all (fun t => t.pool == .writeback) && (List.range 8).all (fun d => (dpGet c d).psb == [])

/-- QUIESCE ends: NDR_STATE becomes QUIESCED (R389). -/
def quiesced (s : State) : State :=
  match cmdAt s 0x10 1 with
  | some x =>
    if cpRuns s && allQuiet s.core && (s.core.st.cur == .ready || s.core.st.cur == .degraded) then
      cmdEnd (withCore s (fun c => setState c .quiesced)) x csOK 0 []
    else s
  | none => s

/-- QUIESCE_COMPLETE (R389). -/
def execQuiesceComplete (s : State) : Host.Outcome State Fault Refusal := onState s quiesced

/-- RESUME (R384, R389): a rebuild that waited for it starts. -/
def resume (s : State) : State :=
  if s.core.st.cur ≠ .quiesced then s
  else
    let dest : BState := if anyOneCopy s.core then .degraded else .ready
    rebuildNext (withCore s (fun c => reqOpen (setState c dest)))

/-- RESUME (R389). -/
def execResume (s : State) : Host.Outcome State Fault Refusal := onCmd s 0x11 (fun s x => cmdEnd (resume s) x csOK 0 [])

/-- NDR_STATE moves from one state to another, and only so (R384). -/
def stateMove (s : State) (a b : BState) : State := if s.core.st.cur = a then withCore s (fun c => setState c b) else s

/-- ENTER_SERVICE (R389). -/
def execEnterService (s : State) : Host.Outcome State Fault Refusal :=
  onCmd s 0x12 (fun s x => cmdEnd (stateMove s .quiesced .service) x csOK 0 [])

/-- LEAVE_SERVICE (R389). -/
def execLeaveService (s : State) : Host.Outcome State Fault Refusal :=
  onCmd s 0x13 (fun s x => cmdEnd (stateMove s .service .quiesced) x csOK 0 [])

/-- POWER_DOWN begins the flush with CAUSE = 2, or joins one that a power failure has begun since it was taken (R382, R390). -/
def powerDown (s : State) (x : Cmd) : State :=
  let s1 := cmdPut s x { x with phase := 1 }
  match s.core.st.cur with
  | .flush => s1
  | .ready | .quiesced | .degraded | .service => flushBegin s1 2
  | _ => cmdEnd s x csWrongState (stateNum s) []

/-- POWER_DOWN (R390). -/
def execPowerDown (s : State) : Host.Outcome State Fault Refusal := onCmd s 0x14 powerDown

/-! ### Policies (R391 to R393). -/

/-- SET_BOUNDS (R391). -/
def execSetBounds (s : State) : Host.Outcome State Fault Refusal :=
  onCmd s 0x20 (fun s x =>
    cmdEnd (withCore s (fun c => { c with pol := { c.pol with bounds := x.params.map (fun b => b.toNat) } })) x csOK 0 [])

/-- SET_HEALTH (R393). -/
def execSetHealth (s : State) : Host.Outcome State Fault Refusal :=
  onCmd s 0x22 (fun s x =>
    let h := (List.range 16).map (fun b => bnum x.params (2 * b) 2)
    cmdEnd (withCore s (fun c => { c with pol := { c.pol with health := h } })) x csOK 0 [])

/-! ### Ware ways (R191, R392). -/

/-- Locations in the ways that are being converted and that still hold a line: physical slice, set, way. -/
def convLocs (c : Core) : List (Nat × Nat × Nat) :=
  (c.arr.lc.filter (fun p => decide (wareFrom c ≤ p.1 % 16) && decide (p.1 % 16 < 16 - c.arr.wcap) && p.2.use != .invalid &&
    p.2.use != .disabled && p.2.use != .ware)).map (fun p => (p.1 / 32768, p.1 / 16 % 2048, p.1 % 16))

/-- The slices clear the ways being converted: Clean lines go, dirty lines and Mirrors move, and what cannot move is bundled (R183, R191). -/
def wareClear (c : Core) : Core :=
  let c := (convLocs c).foldl (fun c k =>
    match (lcRd c k.1 k.2.1 k.2.2).use with
    | .clean => if lineBusy c (lcRd c k.1 k.2.1 k.2.2).line then c else lcFree c k.1 k.2.1 k.2.2
    | _ => lcMove c k.1 k.2.1 k.2.2) c
  let stay := (convLocs c).map (fun k => (lcRd c k.1 k.2.1 k.2.2).line)
  carry (drainAll ((List.range 33).foldl (fun c sl =>
    let l := (bundleable c sl).filter (fun x => stay.contains x)
    bundleMany l.length c sl 1 l none false) c))

/-- A raising SET_WARE goes on: it ends with MEDIA_EXHAUSTED where a pinned line cannot be moved, and, once every converted way is empty,
with OK (R191, R392). -/
def wareStep (s : State) (x : Cmd) (finish : Bool) : State :=
  let s := withCore s wareClear
  let left := convLocs s.core
  if left.any (fun k => (lcRd s.core k.1 k.2.1 k.2.2).pin) then
    cmdEnd (withCore s (fun c => { c with arr := { c.arr with wgoal := none } })) x csExhausted 0 []
  else if finish && left == [] && !(s.core.arr.lc.any (fun p => p.2.use == .borrowed && decide (wareFrom s.core ≤ p.1 % 16))) then
    cmdEnd (withCore s (fun c => { c with arr := { c.arr with wcap := c.arr.wgoal.getD c.arr.wcap, wgoal := none } })) x csOK 0 []
  else s

/-- SET_WARE (R191, R392): a lowering takes effect at once, and the contents of the returned ways are gone. -/
def setWare (s : State) (x : Cmd) : State :=
  let w := bnum x.params 0 4
  let c := s.core
  if w ≤ c.arr.wcap then
    let ware := c.arr.ware.filter (fun p => decide (p.1 < w * 65536))
    cmdEnd { s with core := carry { c with arr := { c.arr with wcap := w, wgoal := none, ware := ware } } } x csOK 0 []
  else
    let y := { x with phase := 1 }
    wareStep (withCore (cmdPut s x y) (fun c => { c with arr := { c.arr with wgoal := some w } })) y false

/-- SET_WARE (R392). -/
def execSetWare (s : State) : Host.Outcome State Fault Refusal := onCmd s 0x21 setWare

/-- WARE_CONVERSION_DONE (R191). -/
def execWareConversionDone (s : State) : Host.Outcome State Fault Refusal :=
  onState s (fun s => match cmdAt s 0x21 1 with
    | some x => if cpRuns s then wareStep s x true else s
    | none => s)

/-! ### The domain (R313, R315, R320, R321, R383, R394). -/

/-- A barrier is released here: the command that waits ends with OK (R315). -/
def barrierEnd (s : State) (b : Nat) : State :=
  if s.core.dom.barrier = some b then
    let s := withCore s (fun c => domMod c (fun d => { d with barrier := none }))
    match cmdAt s 0x30 1 with
    | some x => cmdEnd s x csOK 0 []
    | none => s
  else s

/-- Every member that is not leaving has arrived at a barrier (R315). -/
def barrierFull (c : Core) (b : Nat) : Bool :=
  (List.range 16).all (fun i => !isMember c i || isLeaving c i || c.dom.arrived.contains (b, i))

/-- The Chanter releases every barrier that is full (R315). -/
def barrierCheck (s : State) : State :=
  if !s.core.dom.role then s
  else
    let ids := ((s.core.dom.arrived.map (fun a => a.1)).eraseDups).filter (barrierFull s.core)
    ids.foldl (fun s b =>
      let s := withCore s (fun c => mgtAll (domMod c (fun d => { d with arrived := d.arrived.filter (fun a => a.1 != b) })) 9 (leBytes b 2))
      barrierEnd s b) s

/-- The leave that a DOM_LEAVE waits for has ended (R321, R394). -/
def leftNow (c : Core) (i : Nat) : Bool :=
  !isLeaving c i && (if i = c.dom.inst then others c == [] else !isMember c i)

/-- A DOM_LEAVE whose leave has ended ends with OK (R394). -/
def leaveDone (s : State) : State :=
  match cmdAt s 0x32 1 with
  | some x => if leftNow s.core x.note then cmdEnd s x csOK 0 [] else s
  | none => s

/-- What the members' arrivals, a new map or a new Chanter may bring to an end. -/
def domAfter (s : State) : State := leaveDone (barrierCheck s)

/-- Act as HP on the domain, and end what thereby comes to an end. -/
def onDomain (s : State) (f : Core → Core) : Host.Outcome State Fault Refusal :=
  if s.core.st.cur = .off ∨ hpRuns s = false then .next s else .next (domAfter { s with core := f s.core })

/-- HEARTBEAT (R314, R319). -/
def execHeartbeat (s : State) : Host.Outcome State Fault Refusal := onDomain s beatIn

/-- HEARTBEAT_PERIOD (R314). The Chanter also lets waiting instances join (R320). -/
def execHeartbeatPeriod (s : State) : Host.Outcome State Fault Refusal :=
  onDomain s (fun c => if !c.dom.role || decide (now c < c.dom.lastBeatSent + 2 ^ 14) then c else joinCheck (sendBeat c))

/-- MEMBER (R312). -/
def execMember (s : State) : Host.Outcome State Fault Refusal := onDomain s memberIn

/-- CHANTER_TAKEOVER (R317). -/
def execChanterTakeover (s : State) : Host.Outcome State Fault Refusal :=
  onDomain s (fun c => if c.dom.role || decide (now c < c.dom.lastBeat + 65536 + c.dom.inst * 4096) then c else takeRole c)

/-- INSTANCE_LOST (R309). -/
def execInstanceLost (i : Fin 16) (s : State) : Host.Outcome State Fault Refusal := onDomain s (fun c => instLost c i.val)

/-- LEAVE_REPORT (R321). -/
def execLeaveReport (i : Fin 16) (s : State) : Host.Outcome State Fault Refusal := onDomain s (fun c => leaveReport c i.val)

/-- DOM_BARRIER (R315, R394). -/
def execDomBarrier (s : State) : Host.Outcome State Fault Refusal :=
  onCmd s 0x30 (fun s x =>
    let s := cmdPut s x { x with phase := 1 }
    domAfter (withCore s (fun c => sendArrive (domMod c (fun d => { d with barrier := some (bnum x.params 0 2) })))))

/-- DOM_JOIN (R320, R394). -/
def execDomJoin (s : State) : Host.Outcome State Fault Refusal :=
  onCmd s 0x31 (fun s x =>
    let s := withCore s (fun c => joinCheck (domMod c (fun d => { d with join := BitVec.ofNat 16 (bnum x.params 0 2) })))
    domAfter (cmdEnd s x csOK 0 []))

/-- DOM_LEAVE (R321, R394): the Chanter sends the map with the instance LEAVING; a Drone that names itself waits for that map. -/
def execDomLeave (s : State) : Host.Outcome State Fault Refusal :=
  onCmd s 0x32 (fun s x =>
    let i := bnum x.params 0 1
    let s := cmdPut s x { x with phase := 1, note := i }
    let c := s.core
    let go := c.dom.role && isMember c i
    domAfter (if go then { s with core := newMap c c.dom.members (c.dom.leaving ||| BitVec.ofNat 16 (2 ^ i)) } else s))

/-- ARRIVE reaches the Chanter (R315). -/
def arriveIn (s : State) : State :=
  match takeMgt s.core 8 with
  | none => s
  | some (m, c) =>
    let a := (mgtNum m 8 2, m.src)
    let c := if c.dom.role && !c.dom.arrived.contains a then domMod c (fun d => { d with arrived := d.arrived ++ [a] }) else c
    domAfter { s with core := c }

/-- ARRIVE (R315). -/
def execArrive (s : State) : Host.Outcome State Fault Refusal := onState s (fun s => if hpRuns s then arriveIn s else s)

/-- RELEASE is received (R315). -/
def releaseIn (s : State) : State :=
  match takeMgt s.core 9 with
  | none => s
  | some (m, c) => barrierEnd { s with core := c } (mgtNum m 8 2)

/-- RELEASE (R315). -/
def execRelease (s : State) : Host.Outcome State Fault Refusal := onState s (fun s => if hpRuns s then releaseIn s else s)

/-- A relayed command reaches this instance's CP, which checks and begins it as a local one; it accepts it from the current Chanter only
(R313). -/
def cmdIn (s : State) : State :=
  match takeMgt s.core 6 with
  | none => s
  | some (m, c) =>
    let s := { s with core := c }
    if m.src ≠ c.dom.chanter then s
    else
      let b := (mgtBytes m).drop 16
      let h := b.take 64
      let n := bnum h 2 2
      let l := (b.drop 64).take n
      let o : CmdFrom := .relay (mgtNum m 8 4) m.src
      if 4096 < n ∨ n % 4 ≠ 0 ∨ l.length ≠ n then answerCmd s o csBadParam 2 []
      else match checkHead s h l true with
        | some e => answerCmd s o e.1 e.2 []
        | none => cmdStart s o h l

/-- CMD (R313). -/
def execCmd (s : State) : Host.Outcome State Fault Refusal := onState s (fun s => if cpTakes s then cmdIn s else s)

/-- A target's status reaches the Chanter (R313, R383). -/
def rspIn (s : State) : State :=
  match takeMgt s.core 7 with
  | none => s
  | some (m, c) =>
    let s := { s with core := c }
    let t := (mgtNum m 8 4, m.src)
    match s.ctl.run.find? (fun x => x.rtags.contains t) with
    | none => s
    | some x =>
      if (mfind? x.stats m.src).isSome then s
      else
        let y := { x with stats := mput x.stats m.src (mgtNum m 12 2) }
        domainEnd (cmdPut s x y) y

/-- CMD_RSP (R313). -/
def execCmdRsp (s : State) : Host.Outcome State Fault Refusal := onState s (fun s => if cpRuns s then rspIn s else s)

/-- A command's own timeout has expired: its effect is taken back where it has one in progress; of a domain command, whoever has not
answered is recorded as TIMEOUT (R313, R377, R383). -/
def cmdLate (s : State) (x : Cmd) : State :=
  let s := cmdUndo s x
  if x.domain then
    let y := { x with phase := localDone, stats := (List.range 16).foldl (fun m i =>
      if x.targets.getLsbD i && (mfind? m i).isNone then mput m i csTimeout else m) x.stats }
    domainEnd (cmdPut s x y) y
  else cmdStop s x csTimeout 0

/-- COMMAND_TIMEOUT (R377). -/
def execCommandTimeout (op : BitVec 16) (s : State) : Host.Outcome State Fault Refusal :=
  onState s (fun s => match s.ctl.run.find? (fun x => x.op == op.toNat && decide (x.t0 + x.limit ≤ now s.core)) with
    | some x => if cpRuns s then cmdLate s x else s
    | none => s)

/-! ### Firmware (R395, R470, R471). -/

/-- An image authenticates for a target (R395, R471). -/
def imageGood (t : Nat) (l : List Byte) : Bool :=
  bnum l 0 4 == 0x5746444E && bnum l 4 2 == 1 && bnum l 6 1 == t && bnum l 12 4 + 256 == l.length && Config.imageOk t l

/-- LP carries out no command while it does not run (R473). -/
def lpGone (s : State) : Bool := !s.sag.lpRun || !s.pwr.vddsUp

/-- FW_UPDATE reads and authenticates the image (R395, R453). -/
def fwUpdate (s : State) (x : Cmd) : State :=
  let t := bnum x.params 0 4
  let src := bnum x.params 4 8
  let len := bnum x.params 12 4
  let r := wareBytes ((len + 63) / 64) s.core (addrLine s.core src) []
  let s := { s with core := r.2 }
  if t = 3 ∧ lpGone s = true then cmdEnd s x csInternal 0 []
  else match r.1 with
    | none => cmdEnd s x csDenied 0 []
    | some l =>
      if imageGood t (l.take len) then cmdPut s x { x with phase := 1, note := bnum l 8 4 } else cmdEnd s x csDenied 0 []

/-- FW_UPDATE (R395). -/
def execFwUpdate (s : State) : Host.Outcome State Fault Refusal := onCmd s 0x40 fwUpdate

/-- The image stands in the inactive slot, which becomes active (R395). -/
def imageWritten (s : State) (x : Cmd) : State :=
  let t := bnum x.params 0 4
  let reply := fun (slot : Bool) => leBytes x.note 4 ++ leBytes (b2n slot) 4
  if t = 3 then
    if s.pwr.vddsWarn || lpGone s then s
    else
      let n := !s.sag.lpSlot
      cmdEnd (withSag s (fun g => { g with lpSlot := n })) x csOK 0 (reply n)
  else
    let n := !s.pwr.sel.getLsbD t
    cmdEnd { s with pwr := { s.pwr with sel := setBit3 s.pwr.sel t n } } x csOK 0 (reply n)

/-- IMAGE_SLOT_WRITTEN (R395). -/
def execImageSlotWritten (s : State) : Host.Outcome State Fault Refusal :=
  onState s (fun s => match cmdAt s 0x40 1 with
    | some x => if cpRuns s then imageWritten s x else s
    | none => s)

/-! ### Commands owned by Saggar (R396, R446, R457 to R459). -/

/-- KEY_LOAD (R457, R458). While a VDDS warning is taken no record is written, and the command waits (R478). -/
def keyLoad (s : State) (x : Cmd) : State :=
  let l := x.params
  let k := bnum l 0 1
  let op := bnum l 1 1
  let reply := fun (kcv : Nat) => leBytes k 4 ++ leBytes kcv 4
  if lpGone s then cmdEnd s x csInternal 0 []
  else if s.pwr.vddsWarn then s
  else if op = 1 then cmdEnd (slotSet s k .bypass) x csOK 0 (reply 0)
  else if op = 2 then cmdEnd (slotSet s k .empty) x csOK 0 (reply 0)
  else match Config.unwrapKey k l with
    | none => cmdEnd s x csBadParam 164 []
    | some key =>
      if key.extractLsb' 0 256 = key.extractLsb' 256 256 then cmdEnd s x csBadParam 164 []
      else cmdEnd (slotSet s k (.key key)) x csOK 0 (reply (Config.keyCheck key).toNat)

/-- KEY_LOAD (R457). -/
def execKeyLoad (s : State) : Host.Outcome State Fault Refusal := onCmd s 0x41 keyLoad

/-- DEBUG_UNLOCK (R458): every attempt replaces the nonce (R461). -/
def debugUnlock (s : State) (x : Cmd) : State :=
  let scope : BitVec 3 := BitVec.ofNat 3 (bnum x.params 0 4)
  if lpGone s then cmdEnd s x csInternal 0 []
  else if Config.debugTokenOk s.sag.nonce scope (x.params.drop 4) then
    cmdEnd (newNonce (withSag s (fun g => { g with debugOpen := g.debugOpen ||| scope }))) x csOK 0 (leBytes scope.toNat 4)
  else cmdEnd (newNonce s) x csDenied 0 []

/-- DEBUG_UNLOCK (R458). -/
def execDebugUnlock (s : State) : Host.Outcome State Fault Refusal := onCmd s 0x42 debugUnlock

/-- DEBUG_LOCK (R396). -/
def execDebugLock (s : State) : Host.Outcome State Fault Refusal :=
  onCmd s 0x43 (fun s x => cmdEnd (withSag s (fun g => { g with debugOpen := 0 })) x csOK 0 [])

/-- Slots that SECURE_ERASE names. -/
def eraseMask (x : Cmd) : List Nat := bitsOf (bnum x.params 0 2) 16

/-- SECURE_ERASE (R458): the slots become EMPTY. -/
def secureErase (s : State) (x : Cmd) : State :=
  if lpGone s then cmdEnd s x csInternal 0 []
  else if s.pwr.vddsWarn then s
  else (eraseMask x).foldl (fun s k => slotSet s k .empty) (cmdPut s x { x with phase := 1 })

/-- SECURE_ERASE (R458). -/
def execSecureErase (s : State) : Host.Outcome State Fault Refusal := onCmd s 0x44 secureErase

/-- Every line that the cache or a pinned hold has of regions naming the slots is invalidated, dirty ones and Mirrors included (R458). -/
def discardSlots (c : Core) (ks : List Nat) : Core :=
  let mine := fun (line : Nat) => match rgnIndex c line with
    | some r => ks.contains (rgnKey (rgnCur c r))
    | none => false
  let own := (c.arr.lc.filter (fun p => (p.2.use == .clean || p.2.use.isDirty) && mine p.2.line)).map (fun p => p.2.line)
  let held := (c.arr.hold.filter (fun h => mine h.line)).map (fun h => h.line)
  carry ((own ++ held).foldl discardLine c)

/-- The overwriting, and any discard, have ended (R458). -/
def eraseDone (s : State) (x : Cmd) : State :=
  let s := if bnum x.params 2 2 % 2 = 1 then withCore s (fun c => discardSlots c (eraseMask x)) else s
  cmdEnd s x csOK 0 (leBytes (bnum x.params 0 2) 2)

/-- SECURE_ERASE_DONE (R458). -/
def execSecureEraseDone (s : State) : Host.Outcome State Fault Refusal :=
  onState s (fun s => match cmdAt s 0x44 1 with
    | some x => if cpRuns s && !lpGone s && !s.pwr.vddsWarn then eraseDone s x else s
    | none => s)

/-- SAG_RESEAL (R459). -/
def sagReseal (s : State) (x : Cmd) : State :=
  if lpGone s then cmdEnd s x csInternal 0 []
  else if s.pwr.vddsWarn then s
  else if s.sag.loopOpen then cmdEnd s x csDenied 0 []
  else if Config.resealOk s.sag.reseals s.sag.lpVer x.params then
    let f := takeFree s.core
    let key := Config.signPub f.1
    let n := s.sag.reseals + 1
    let s := withSag { s with core := f.2 } (fun g => { g with signKey := some key, sealed := true, cause := 0, reseals := n })
    cmdEnd s x csOK 0 (leBytes key.toNat 64 ++ leBytes uidShown.toNat 8 ++ leBytes n 4)
  else cmdEnd (newNonce s) x csDenied 0 []

/-- SAG_RESEAL (R459). -/
def execSagReseal (s : State) : Host.Outcome State Fault Refusal := onCmd s 0x45 sagReseal

/-- SAG_READOUT (R446, R458). -/
def sagReadout (s : State) (x : Cmd) : State :=
  let i := bnum x.params 32 1
  if lpGone s then cmdEnd s x csInternal 0 []
  else if i = 0xFF then
    let r := readout s (BitVec.ofNat 256 (bnum x.params 0 32)) false
    cmdEnd r.2 x csOK 0 r.1
  else match mfind? s.sag.collected i with
    | some l => cmdEnd s x csOK 0 l
    | none => cmdEnd s x csTimeout 0 []

/-- SAG_READOUT (R446). -/
def execSagReadout (s : State) : Host.Outcome State Fault Refusal := onCmd s 0x46 sagReadout

/-! ### JTAG (R480). -/

/-- The public instructions whose codes the spec gives: IDCODE and BYPASS (R480). -/
def publicIr (ir : BitVec 8) : Bool := ir == 0x01 || ir == 0xFF

/-- JTAG_INSTRUCTION (R480): a private instruction acts as BYPASS and is reported while debug scope bit 1 is locked. Unlocked, it acts on
the debug port or scans internal state in ways that the spec does not give. -/
def execJtagInstruction (ir : BitVec 8) (s : State) : Host.Outcome State Fault Refusal :=
  if publicIr ir then .next s
  else if s.sag.debugOpen.getLsbD 1 then .refused (.privateJtag ir)
  else onCore s (fun c => event c (Config.openCode 1) [])

end Sys2Proof.Machine
end

