-- ==== Sys2Proof/Machine/Tick.lean ====
section
/-! DEFINITION. The TB tick (R487): the tick count, the domain time (R314), the Cones' reports (R419), and what is due at once but is
carried on from tick to tick: a counter snapshot (R352), funnelled records (R316), the walk of a cache being disabled (R194) and of a
flush (R243). -/

namespace Sys2Proof.Machine

/-- The domain time goes on by one; held it stands, and a slew moves it by one more or one less at every 1,024th tick (R314). -/
def timeStep (t : BitVec 64) (d : Domain) : Domain :=
  let due := decide (t.toNat % 1024 = 0)
  if d.hold ≠ 0 then { d with hold := d.hold - 1 }
  else if due ∧ 0 < d.slew then { d with time := d.time + 2, slew := d.slew - 1 }
  else if due ∧ d.slew < 0 then { d with slew := d.slew + 1 }
  else { d with time := d.time + 1 }

/-- The data side at a rising edge of TB_CLK. -/
def tickCore (c : Core) (cones : List (Nat × BitVec 16 × BitVec 16)) (hp : Bool) : Core :=
  let t := c.tick + 1
  let c := conesReport { c with tick := t, dom := timeStep t c.dom } cones
  let c := if hp then funnelSend c else c
  lcWalk (purgeLeft c)

/-- A rising edge of TB_CLK (R487). -/
def tick (s : State) (cones : List (Nat × BitVec 16 × BitVec 16)) : State :=
  let s := capture { s with core := tickCore s.core cones (hpRuns s), mport := { s.mport with rsp := false } }
  if s.core.st.cur = .flush ∧ s.pers.closing = false then flushWalk s else s

/-- TB_TICK (R487). -/
def execTbTick (cones : List (Fin 41 × BitVec 16 × BitVec 16)) (s : State) : Host.Outcome State Fault Refusal :=
  onState s (fun s => tick s (cones.map (fun x => (x.1.val, x.2.1, x.2.2))))

end Sys2Proof.Machine
end

