-- ==== Sys2Proof/Machine/Dispatch.lean ====
section
/-! DEFINITION. The meaning of every command, one arm per constructor. -/

namespace Sys2Proof.Machine

/-- The effect of a command on everything but the queue of waiting commands. -/
def exec (i : Instr) (s : State) : Host.Outcome State Fault Refusal :=
  match i with
  | .reqIngress x => Sys2Proof.Machine.execReqIngress x s
  | .storeEntersBuffer d => Sys2Proof.Machine.execStoreEntersBuffer d s
  | .storeDrain d => Sys2Proof.Machine.execStoreDrain d s
  | .storeCmp d tag => Sys2Proof.Machine.execStoreCmp d tag s
  | .fence d => Sys2Proof.Machine.execFence d s
  | .fenceP d => Sys2Proof.Machine.execFenceP d s
  | .regAccess d => Sys2Proof.Machine.execRegAccess d s
  | .rdShared r => Sys2Proof.Machine.execRdShared r s
  | .rdUnique r => Sys2Proof.Machine.execRdUnique r s
  | .rdOnce r => Sys2Proof.Machine.execRdOnce r s
  | .cleanUnique r => Sys2Proof.Machine.execCleanUnique r s
  | .wrFull r => Sys2Proof.Machine.execWrFull r s
  | .wrPartial r => Sys2Proof.Machine.execWrPartial r s
  | .persist r => Sys2Proof.Machine.execPersist r s
  | .load r => Sys2Proof.Machine.execLoad r s
  | .drainedStore r => Sys2Proof.Machine.execDrainedStore r s
  | .loadRes r => Sys2Proof.Machine.execLoadRes r s
  | .storeCond r => Sys2Proof.Machine.execStoreCond r s
  | .wbDirty x => Sys2Proof.Machine.execWbDirty x s
  | .evictClean x => Sys2Proof.Machine.execEvictClean x s
  | .trillPrefetch r => Sys2Proof.Machine.execTrillPrefetch r s
  | .pugIssue j => Sys2Proof.Machine.execPugIssue j s
  | .pugLineAction r => Sys2Proof.Machine.execPugLineAction r s
  | .backInvalidation slice trk => Sys2Proof.Machine.execBackInvalidation slice trk s
  | .sweepLine slice => Sys2Proof.Machine.execSweepLine slice s
  | .bourdonSlotGrant slice trk => Sys2Proof.Machine.execBourdonSlotGrant slice trk s
  | .snpResp x => Sys2Proof.Machine.execSnpResp x s
  | .snpRespData x => Sys2Proof.Machine.execSnpRespData x s
  | .fwdDone x => Sys2Proof.Machine.execFwdDone x s
  | .ack x => Sys2Proof.Machine.execAck x s
  | .forwardedCmpData x => Sys2Proof.Machine.execForwardedCmpData x s
  | .completionEgress r => Sys2Proof.Machine.execCompletionEgress r s
  | .outboundCredit p cls => Sys2Proof.Machine.execOutboundCredit p cls s
  | .mirrorWrite slice trk => Sys2Proof.Machine.execMirrorWrite slice trk s
  | .mirrorAck slice trk => Sys2Proof.Machine.execMirrorAck slice trk s
  | .filterCopyWrite slice trk => Sys2Proof.Machine.execFilterCopyWrite slice trk s
  | .filterCopyAck slice trk => Sys2Proof.Machine.execFilterCopyAck slice trk s
  | .mirrorRelease slice line => Sys2Proof.Machine.execMirrorRelease slice line s
  | .closeNotice slice trk => Sys2Proof.Machine.execCloseNotice slice trk s
  | .setReadRequest slice set => Sys2Proof.Machine.execSetReadRequest slice set s
  | .setReadReply slice set => Sys2Proof.Machine.execSetReadReply slice set s
  | .holdNotice r => Sys2Proof.Machine.execHoldNotice r s
  | .abandonNotice d tag => Sys2Proof.Machine.execAbandonNotice d tag s
  | .backgroundBundling slice lines => Sys2Proof.Machine.execBackgroundBundling slice lines s
  | .transferGrant b flits => Sys2Proof.Machine.execTransferGrant b flits s
  | .creditWindow b => Sys2Proof.Machine.execCreditWindow b s
  | .bankArbitration slice bank waiting urgent => Sys2Proof.Machine.execBankArbitration slice bank waiting urgent s
  | .beData b f => Sys2Proof.Machine.execBeData b f s
  | .beDurable b f => Sys2Proof.Machine.execBeDurable b f s
  | .exhausted b f => Sys2Proof.Machine.execExhausted b f s
  | .scanning b f => Sys2Proof.Machine.execScanning b f s
  | .ready b f => Sys2Proof.Machine.execReady b f s
  | .bound b f => Sys2Proof.Machine.execBound b f s
  | .beHealth b f => Sys2Proof.Machine.execBeHealth b f s
  | .ingressTimeout r => Sys2Proof.Machine.execIngressTimeout r s
  | .snoopTimeout slice trk agent => Sys2Proof.Machine.execSnoopTimeout slice trk agent s
  | .beReadTimeout b tag => Sys2Proof.Machine.execBeReadTimeout b tag s
  | .bundleTimeout b tag => Sys2Proof.Machine.execBundleTimeout b tag s
  | .reservationExpiry slice e => Sys2Proof.Machine.execReservationExpiry slice e s
  | .portReset p => Sys2Proof.Machine.execPortReset p s
  | .portPurgeComplete p => Sys2Proof.Machine.execPortPurgeComplete p s
  | .portResetRelease p => Sys2Proof.Machine.execPortResetRelease p s
  | .remoteSnoop k => Sys2Proof.Machine.execRemoteSnoop k s
  | .gatewayRequest k => Sys2Proof.Machine.execGatewayRequest k s
  | .remoteCompletion k => Sys2Proof.Machine.execRemoteCompletion k s
  | .flit n fr => Sys2Proof.Machine.execFlit n fr s
  | .nak n fr => Sys2Proof.Machine.execNak n fr s
  | .credit n fr => Sys2Proof.Machine.execCredit n fr s
  | .idle n fr => Sys2Proof.Machine.execIdle n fr s
  | .train n fr => Sys2Proof.Machine.execTrain n fr s
  | .trainAnnounce n => Sys2Proof.Machine.execTrainAnnounce n s
  | .linkUp n => Sys2Proof.Machine.execLinkUp n s
  | .linkLost n => Sys2Proof.Machine.execLinkLost n s
  | .spanAckDue k src => Sys2Proof.Machine.execSpanAckDue k src s
  | .reissue k dst => Sys2Proof.Machine.execReissue k dst s
  | .hello n => Sys2Proof.Machine.execHello n s
  | .helloPeriod => Sys2Proof.Machine.execHelloPeriod s
  | .route n => Sys2Proof.Machine.execRoute n s
  | .routePeriod => Sys2Proof.Machine.execRoutePeriod s
  | .spanAck n => Sys2Proof.Machine.execSpanAck n s
  | .heartbeat => Sys2Proof.Machine.execHeartbeat s
  | .heartbeatPeriod => Sys2Proof.Machine.execHeartbeatPeriod s
  | .echo => Sys2Proof.Machine.execEcho s
  | .cmd => Sys2Proof.Machine.execCmd s
  | .cmdRsp => Sys2Proof.Machine.execCmdRsp s
  | .arrive => Sys2Proof.Machine.execArrive s
  | .release => Sys2Proof.Machine.execRelease s
  | .funnel => Sys2Proof.Machine.execFunnel s
  | .ledger => Sys2Proof.Machine.execLedger s
  | .ledgerCycle => Sys2Proof.Machine.execLedgerCycle s
  | .member => Sys2Proof.Machine.execMember s
  | .chanterTakeover => Sys2Proof.Machine.execChanterTakeover s
  | .instanceLost inst => Sys2Proof.Machine.execInstanceLost inst s
  | .pwrOkAssert inst chanterN => Sys2Proof.Machine.execPwrOkAssert inst chanterN s
  | .pwrOkDeassert => Sys2Proof.Machine.execPwrOkDeassert s
  | .warmReset => Sys2Proof.Machine.execWarmReset s
  | .warmResetEffect => Sys2Proof.Machine.execWarmResetEffect s
  | .calibrationDone slices links ports => Sys2Proof.Machine.execCalibrationDone slices links ports s
  | .imageLoaded proc ok version => Sys2Proof.Machine.execImageLoaded proc ok version s
  | .openRecordWritten ok => Sys2Proof.Machine.execOpenRecordWritten ok s
  | .recordRetry => Sys2Proof.Machine.execRecordRetry s
  | .pwrfail => Sys2Proof.Machine.execPwrfail s
  | .flushLimit => Sys2Proof.Machine.execFlushLimit s
  | .closeRecord => Sys2Proof.Machine.execCloseRecord s
  | .flushEnd ok => Sys2Proof.Machine.execFlushEnd ok s
  | .spanWait => Sys2Proof.Machine.execSpanWait s
  | .vddsWarn => Sys2Proof.Machine.execVddsWarn s
  | .vddsPowerUp lpOk version => Sys2Proof.Machine.execVddsPowerUp lpOk version s
  | .tbclkLost => Sys2Proof.Machine.execTbclkLost s
  | .serviceNAssert => Sys2Proof.Machine.execServiceNAssert s
  | .serviceNDeassert => Sys2Proof.Machine.execServiceNDeassert s
  | .sealSample back => Sys2Proof.Machine.execSealSample back s
  | .testModeEntry => Sys2Proof.Machine.execTestModeEntry s
  | .procFault proc => Sys2Proof.Machine.execProcFault proc s
  | .procRestart proc ok version => Sys2Proof.Machine.execProcRestart proc ok version s
  | .lpFault => Sys2Proof.Machine.execLpFault s
  | .sliceFailed phys cause => Sys2Proof.Machine.execSliceFailed phys cause s
  | .mirrorAckTimeout slice trk => Sys2Proof.Machine.execMirrorAckTimeout slice trk s
  | .linkFailed link => Sys2Proof.Machine.execLinkFailed link s
  | .tableChange => Sys2Proof.Machine.execTableChange s
  | .tableChangeTimeout link => Sys2Proof.Machine.execTableChangeTimeout link s
  | .fettlerScrub => Sys2Proof.Machine.execFettlerScrub s
  | .bisqueBorrow => Sys2Proof.Machine.execBisqueBorrow s
  | .linkTestFlit link dir ok => Sys2Proof.Machine.execLinkTestFlit link dir ok s
  | .rotation => Sys2Proof.Machine.execRotation s
  | .migrationCopyDone => Sys2Proof.Machine.execMigrationCopyDone s
  | .cutoverClose => Sys2Proof.Machine.execCutoverClose s
  | .spareTestDone ok => Sys2Proof.Machine.execSpareTestDone ok s
  | .bucketLeak => Sys2Proof.Machine.execBucketLeak s
  | .policyEvaluation => Sys2Proof.Machine.execPolicyEvaluation s
  | .voltageFloor => Sys2Proof.Machine.execVoltageFloor s
  | .bankTake => Sys2Proof.Machine.execBankTake s
  | .flueData m => Sys2Proof.Machine.execFlueData m s
  | .meterIncrement parityOk => Sys2Proof.Machine.execMeterIncrement parityOk s
  | .quantumTransfer meter q => Sys2Proof.Machine.execQuantumTransfer meter q s
  | .powerOnSecond => Sys2Proof.Machine.execPowerOnSecond s
  | .commit m r v => Sys2Proof.Machine.execCommit m r v s
  | .wrefClear m r v => Sys2Proof.Machine.execWrefClear m r v s
  | .wrefSet m r v => Sys2Proof.Machine.execWrefSet m r v s
  | .start m j v => Sys2Proof.Machine.execStart m j v s
  | .abort m j v => Sys2Proof.Machine.execAbort m j v s
  | .lcDisable m v => Sys2Proof.Machine.execLcDisable m v s
  | .lcEnable m v => Sys2Proof.Machine.execLcEnable m v s
  | .snap m v => Sys2Proof.Machine.execSnap m v s
  | .snapRelease m v => Sys2Proof.Machine.execSnapRelease m v s
  | .ptrHiWrite m mb v => Sys2Proof.Machine.execPtrHiWrite m mb v s
  | .ptrHiTake m mb => Sys2Proof.Machine.execPtrHiTake m mb s
  | .lig m k => Sys2Proof.Machine.execLig m k s
  | .ligRelease m k => Sys2Proof.Machine.execLigRelease m k s
  | .force m k => Sys2Proof.Machine.execForce m k s
  | .bellSet m bank v => Sys2Proof.Machine.execBellSet m bank v s
  | .bellClr m bank v => Sys2Proof.Machine.execBellClr m bank v s
  | .coneSel m v => Sys2Proof.Machine.execConeSel m v s
  | .arbClr m v => Sys2Proof.Machine.execArbClr m v s
  | .fabClr m v => Sys2Proof.Machine.execFabClr m v s
  | .rotate m v => Sys2Proof.Machine.execRotate m v s
  | .flipMask m v => Sys2Proof.Machine.execFlipMask m v s
  | .bpWin m b v => Sys2Proof.Machine.execBpWin m b v s
  | .registerWrite m off v be => Sys2Proof.Machine.execRegisterWrite m off v be s
  | .nop => Sys2Proof.Machine.execNop s
  | .getInfo => Sys2Proof.Machine.execGetInfo s
  | .getPolicy => Sys2Proof.Machine.execGetPolicy s
  | .quiesce => Sys2Proof.Machine.execQuiesce s
  | .quiesceComplete => Sys2Proof.Machine.execQuiesceComplete s
  | .resume => Sys2Proof.Machine.execResume s
  | .enterService => Sys2Proof.Machine.execEnterService s
  | .leaveService => Sys2Proof.Machine.execLeaveService s
  | .powerDown => Sys2Proof.Machine.execPowerDown s
  | .setBounds => Sys2Proof.Machine.execSetBounds s
  | .setWare => Sys2Proof.Machine.execSetWare s
  | .wareConversionDone => Sys2Proof.Machine.execWareConversionDone s
  | .setHealth => Sys2Proof.Machine.execSetHealth s
  | .domBarrier => Sys2Proof.Machine.execDomBarrier s
  | .domJoin => Sys2Proof.Machine.execDomJoin s
  | .domLeave => Sys2Proof.Machine.execDomLeave s
  | .fwUpdate => Sys2Proof.Machine.execFwUpdate s
  | .keyLoad => Sys2Proof.Machine.execKeyLoad s
  | .debugUnlock => Sys2Proof.Machine.execDebugUnlock s
  | .debugLock => Sys2Proof.Machine.execDebugLock s
  | .secureErase => Sys2Proof.Machine.execSecureErase s
  | .sagReseal => Sys2Proof.Machine.execSagReseal s
  | .sagReadout => Sys2Proof.Machine.execSagReadout s
  | .commandTimeout op => Sys2Proof.Machine.execCommandTimeout op s
  | .tbTick cones => Sys2Proof.Machine.execTbTick cones s
  | .vddsLoss => Sys2Proof.Machine.execVddsLoss s
  | .noChanter => Sys2Proof.Machine.execNoChanter s
  | .echoRequest => Sys2Proof.Machine.execEchoRequest s
  | .registerRead m off => Sys2Proof.Machine.execRegisterRead m off s
  | .leaveReport inst => Sys2Proof.Machine.execLeaveReport inst s
  | .jtagInstruction ir => Sys2Proof.Machine.execJtagInstruction ir s
  | .marchTestDone failed => Sys2Proof.Machine.execMarchTestDone failed s
  | .presenceEstablished => Sys2Proof.Machine.execPresenceEstablished s
  | .imageSlotWritten => Sys2Proof.Machine.execImageSlotWritten s
  | .secureEraseDone => Sys2Proof.Machine.execSecureEraseDone s

end Sys2Proof.Machine
end

