-- ==== Sys2Proof/Safety.lean ====
section
/-! DEFINITION. The terms that statements about the machine use: a command that completes, the invariant of packet RAM, a data side that
has nothing left to do by itself, and a home slice at which a request meets nothing in its way. -/

namespace Sys2Proof.Machine

/-- Command i answers a next state at s, and that state satisfies P. -/
def Completes (i : Instr) (s : State) (P : State → Prop) : Prop := ∃ t, exec i s = .next t ∧ P t

/-- Command i answers a next state at s that differs from s in the data side only, which becomes c. -/
def CoreTo (i : Instr) (s : State) (c : Core) : Prop := exec i s = .next { s with core := c }

/-- The invariant of the machine: packet RAM keeps its canonical form, inside its 256 KiB (R344). -/
abbrev Inv (s : State) : Prop := Memory.wf s.pram = true

/-- The block is not OFF (R384). -/
abbrev On (s : State) : Prop := s.core.st.cur ≠ .off

/-- No parity flip is armed (R364). -/
abbrev NoFlip (c : Core) : Prop := (regv c 0x40010).getLsbD 0 = false

/-- A tracker entry has nothing left to do but what its state names: no sharer to take out of the entry, no dirty data to write, no attached
write-back to complete, and no snoop data whose hold notice is still to leave (R121, R412). -/
abbrev Trk.Clear (c : Core) (t : Trk) : Prop :=
  t.leave = [] ∧ t.dirtyIn = none ∧ (∀ w ∈ t.wbs, w.kept = false) ∧
  ∀ p ∈ c.cport, ∀ r ∈ p.2.recs, r.phys = t.phys → r.trk = t.idx → c.fab.holdN.contains (recRef r.agent r.phys r.trk) = true

/-- A tracker entry that can go no further by itself: before LOOKUP, waiting for its ACK, for snoop answers, or for acknowledgments. -/
abbrev Trk.Stuck (c : Core) (t : Trk) : Prop :=
  t.passed = false ∨ (t.Clear c ∧
    ((t.st = .ackWait ∧ t.acked = false) ∨ (t.st = .gather ∧ gathering t = true ∧ t.fwd = none ∧ t.newEnt = none) ∨
      (t.st = .mirror ∧ gathering t = false ∧ (t.data.isSome = true ∨ needsData t = false) ∧ filling t = false ∧
        (t.wrote = true ∨ isWrite t = false) ∧ t.lateFilter = false ∧ ackedAll t = false)))

/-- No part of the homes is on the move by itself: no set is swept, nothing leaves service, the implicit CLEAN_INVALIDATE does not run and the
instance is not leaving. -/
abbrev Restful (c : Core) : Prop :=
  c.arr.lost = [] ∧ c.arr.retiring = [] ∧ c.arr.leaving = [] ∧ c.lcBusy = false ∧ isLeaving c c.dom.inst = false

/-- Nothing in the homes can go further by itself: every tracker entry is stuck, none is deferred, no two have one number, and the homes are at
rest. -/
abbrev Calm (c : Core) : Prop :=
  (∀ t ∈ c.arr.trk, t.Stuck c ∧ t.st ≠ .deferred) ∧ (c.arr.trk.map (fun t => (t.slice, t.idx))).Nodup ∧ Restful c

/-- Request r, on its way to its home, finds nothing in its way there: no other transaction, none that waits for an entry before it, no error of
R61, a NORMAL line with a key and a B-port, good arrays, no flip armed, and a slice that bears its own lines and that no table change holds. -/
abbrev QuietHome (c : Core) (r : Req) : Prop :=
  c.arr.trk = [] ∧ c.arr.waits = [] ∧ Restful c ∧ c.ending = false ∧ NoFlip c ∧ destHeld c r.line = false ∧
  c.fabric.taken.contains (sliceOf c r.line) = false ∧
  c.fab.reqs.find? (fun q => q.src == r.src && q.tag == r.tag && q.op == r.op) = some r ∧ firstOf c r = true ∧
  lineType c r.line = 1 ∧ (bportOf c r.line).isSome = true ∧ above16T r.line = false ∧ wrefOf c r.line = false ∧
  keyEmpty c r.line = false ∧ roleOf c (sliceOf c r.line) = .active ∧ oneCopy c (sliceOf c r.line) = false ∧ c.lcStop = false ∧
  setHeld c (sliceOf c r.line) (sfSet r.line) = false ∧ sfSetOk c (sliceOf c r.line) (sfSet r.line) = true ∧
  (∀ p ∈ c.arr.lc, p.2.tbad = false ∧ p.2.dbad = false) ∧ c.arr.nruBad = [] ∧ heldOf c r.line = none

/-- The location of a line's own copy at its home, in way w. -/
abbrev homeLoc (c : Core) (line w : Nat) : Loc := lcRd c (physOf c (sliceOf c line)) (lcSet line) w

/-- C-port p is open, nothing waits in its inbound boundary FIFOs, and the far side holds a credit of class k: a flit of that class is taken
(R63, R66). -/
abbrev CanTake (c : Core) (p k : Nat) : Prop :=
  portsUp c = true ∧ (cpGet c p).closed = false ∧ (cpGet c p).inq = [] ∧ 0 < credit (cpGet c p).inCrd k

/-- D-port d is open, holds no access back, and the far side holds a REQ credit (R63, R64). -/
abbrev DirectTakes (c : Core) (d : Nat) : Prop :=
  portsUp c = true ∧ (dpGet c d).closed = false ∧ (dpGet c d).fifo = [] ∧ (dpGet c d).loads = [] ∧ (dpGet c d).early = [] ∧
  (dpGet c d).waiting = none ∧ 0 < credit (dpGet c d).inCrd 0

/-- B-port b takes flit f: it is open, the block has not halted, the far side holds a credit of its class, and the flit passes its checks (R46,
R49, R63). -/
abbrev BackTakes (c : Core) (b : Nat) (f : Flit) : Prop :=
  (bpGet c b).closed = false ∧ c.st.cur ≠ .halt ∧ 0 < credit (bpGet c b).inCrd (fClass f) ∧ fate [2, 3, 5] f = .good ∧ NoFlip c

/-- The data side c once B-port b has given the inbound entry of flit f back (R66). -/
def freed (c : Core) (b : Nat) (f : Flit) : Core := { c with wire := c.wire ++ [.credit (epB b) (fClass f) 1] }

/-- What the terminals of an endpoint show where an inbound REQ entry of it is freed: its credit, or nothing while REQ credits are kept back (R69,
R385). -/
def reqBack (c : Core) (ep : Nat) : List Driven := if reqHeld c then [] else [.credit ep 0 1]

/-- D-port x once an inbound REQ entry of it is freed: the credit goes back, or is kept (R69, R385). -/
def reqFreed (c : Core) (x : DPort) : DPort :=
  if reqHeld c then { x with owed := x.owed + 1 } else { x with inCrd := earn x.inCrd 0 1 }

/-- An outbound boundary is empty and holds a credit of class k, so that a flit of that class leaves at once (R63). -/
abbrev CanSend (outq : List OutFlit) (credits : List Nat) (k : Nat) : Prop := outq = [] ∧ 0 < credit credits k

/-- A transaction at a home has changed no more of the data side than the arrays, the messages in flight, counters and statistics. -/
abbrev HomeFrame (c d : Core) : Prop := d = { c with arr := d.arr, fab := d.fab, ctr := d.ctr, hist := d.hist }

/-- Master m reaches every register, RW-P fields included: it is there and presents PRIV and SECURE (R7, R345). -/
abbrev MayAll (s : State) (m : Master) : Prop := masterLive s m = true ∧ masterBoth m = true

/-- CP has taken command x of an opcode, which stands at a phase; its packet lies at p in packet RAM, it came through mailbox b, and the
reply mailbox of its bank is free. -/
abbrev Taken (s : State) (op phase : Nat) (x : Cmd) (b : Nat) (p : BitVec 64) : Prop :=
  cmdAt s op phase = some x ∧ x.domain = false ∧ x.origin = .box b p ∧ b < 8 ∧ cpRuns s = true ∧ On s ∧ ptrWare p = false ∧
  ptrAddr p + 1616 ≤ pramSize ∧ s.ctl.replies = [] ∧ (mbxGet s (8 + b / 2)).full = false ∧ NoFlip s.core ∧ Inv s

/-- Every register but the one at an offset reads in d what it reads in c. -/
abbrev RegsKept (c d : Core) (off : Nat) : Prop := ∀ o, o ≠ off → regv d o = regv c o

/-- Command x has ended in t with a status, a DETAIL and reply bytes in its packet at p, its pointer stands in the reply mailbox and the
Bell of that bank has rung; nothing else differs from s, which holds the command's own effect (R377 to R379). -/
abbrev Answered (s t : State) (x : Cmd) (b : Nat) (p : BitVec 64) (status detail : Nat) (reply : List Byte) : Prop :=
  t = { s with
    core := ring s.core (b / 2) 0, pram := t.pram, pramBad := t.pramBad
    ctl := { s.ctl with
      run := s.ctl.run.filter (fun y => y != x), replies := []
      mbx := mput s.ctl.mbx (8 + b / 2) { lo := loW p.toNat, ptr := p, full := true, wpriv := true, wsec := true, writer := 10 } } } ∧
  memGetBytes t.pram (ptrAddr p + 16) 4 = leBytes status 2 ++ leBytes detail 2 ∧
  memGetBytes t.pram (ptrAddr p + 20) 4 = leBytes reply.length 4 ∧
  memGetBytes t.pram (ptrAddr p + 24) 8 = leBytes s.core.tick.toNat 8 ∧
  memGetBytes t.pram (ptrAddr p + 64) reply.length = reply ∧
  (∀ a, (a < ptrAddr p + 16 ∨ ptrAddr p + 32 ≤ a) → (a < ptrAddr p + 64 ∨ ptrAddr p + 64 + reply.length ≤ a) →
    memGet t.pram a = memGet s.pram a)

/-- Nothing is under way on the data side, no migration is open, no flip is armed and the instance is not leaving. -/
abbrev Idle (s : State) : Prop :=
  s.bisq.migr = none ∧ s.bisq.repl = none ∧ s.bisq.walk = [] ∧ s.core.arr = {} ∧ s.core.cport = [] ∧ s.core.dport = [] ∧
  s.core.gw = [] ∧ s.core.reads = [] ∧ s.core.bundles = [] ∧ s.core.fab = {} ∧ isLeaving s.core s.core.dom.inst = false ∧ NoFlip s.core

/-- The registers of this list consist of fields that host software writes and of reserved bits alone. -/
def plainRegs : List Nat := [0x14, 0x600, 0x808, 0x10300, 0x2000C, 0x20018, 0x40000, 0x41000, 0x51000, 0x60000, 0x60040]

end Sys2Proof.Machine
end

