-- ==== Sys2Proof/Certificates/Slice0/Obligations.lean ====
section
/-! DEFINITION. What is claimed of the machine: one named statement for each group of rules of the spec. -/

open Sys2Proof Sys2Proof.Machine

/-! ### The queue and the step. -/

/-- A step takes the command at the front of the queue and runs it on the machine with the queue's rest. With no command waiting the block
idles (the model's choice: assumption 1). -/
def Obligations.StepRunsFront : Prop :=
  (∀ (i : Instr) (s : State), step { s with pending := i :: s.pending } = exec i s) ∧
  (∀ s : State, s.pending = [] → step s = .next s)


/-- No command changes the queue of the commands that wait behind it. -/
def Obligations.QueueKept : Prop := ∀ (i : Instr) (s t : State), exec i s = .next t → t.pending = s.pending

/-! ### Ingress (R55 to R61, R292, R298). -/

/-- A good REQ flit at an open C-port of a message that the port may send, with a credit and a free TAG and for a line homed here, leaves for
its home under a free internal tag, and its boundary entry's credit goes back; nothing else changes but the injected-flit count. A STORE at
an idle D-port stands in its boundary FIFO, with its credit, until it enters the buffer. A request that a gateway has received leaves for its
home as requester 80 + i. -/
def Obligations.IngressTakesRequest : Prop :=
  (∀ (s : State) (c : Core) (p : Fin 16) (f : Flit) (m : Msg) (o : Op) (tg : Nat), s.core = c → On s → CanTake c p 0 →
    fate [0, 2, 3, 4] f = .good → fClass f = 0 → statBad f = false → fReg f = false → (msgData m = true → storeRoom (cpGet c p) 0 = true) →
    fMsg f = some m → cOp m = some o → isLocal c (fLine f) = true → tagUsed (cpGet c p).tags (cRid p f) (fTag f) = false →
    cOut (cpGet c p) < 512 → freeTag (cpGet c p).tags 1024 = some tg → NoFlip c →
    (regv c (portPage (epC p) + 0x300)).getLsbD 0 = false →
    let r : Req := {
      op := o, src := epC p, tag := tg, rid := cRid p f, line := fLine f, be := if o = .wrPartial then fBe f else beAll
      data := if msgData m then f.pay else 0, poison := fPoison f, shint := fShint f }
    let d := countInj (cpMod c p (fun y => { y with
      inCrd := if reqHeld c then spend y.inCrd 0 else y.inCrd, owed := if reqHeld c then y.owed + 1 else y.owed
      tags := y.tags ++ [{ tag := tg, req := r, utag := fTag f, t0 := now c }] })) (epC p)
    CoreTo (.reqIngress (.cport p f)) s { d with fab := { d.fab with reqs := d.fab.reqs ++ [r] }, wire := d.wire ++ reqBack c (epC p) }) ∧
  (∀ (s : State) (c : Core) (n : Fin 8) (f : Flit), s.core = c → On s → DirectTakes c n → NoFlip c →
    fate [0] f = .good → statBad f = false → fReg f = false → fMsg f = some .store → dTagUsed (dpGet c n) (fTag f) = false →
    dOut (dpGet c n) < 256 → instOk c (fLine f) = true → storeCheck c (fLine f) = none →
    let r : Req := {
      op := .store, src := epD n, tag := 0, rid := 64 + n, line := fLine f, be := fBe f, data := f.pay, poison := fPoison f
      priv := fPriv f, sec := fSecure f, shint := fShint f }
    CoreTo (.reqIngress (.dport n f)) s
      (dpMod c n (fun y => { y with fifo := [{ req := r, utag := fTag f, t0 := now c }], inCrd := spend y.inCrd 0 }))) ∧
  (∀ (s : State) (c : Core) (k : Fin 4) (m : SpanMsg) (o : Op), s.core = c → On s → portsUp c = true →
    rxFind c k (fun m => msgCls m.msg == 0) = some m → isMember c m.src = true →
    (rxFlit m).odd = false → (rxFlit m).reg = false → spanOp m.msg = some o →
    let f := rxFlit m
    let r : Req := {
      op := o, src := epG k, tag := f.tag + 4096 * m.src, rid := 80 + m.src, line := f.line
      be := if o = .wrPartial ∨ o = .store ∨ o = .load then f.be else beAll, data := f.data, poison := f.poison }
    let d := countInj (rxDrop c k m) (epG k)
    CoreTo (.reqIngress (.gw k)) s { d with fab := { d.fab with reqs := d.fab.reqs ++ [r] } })

/-! ### The posted-store buffer (R210 to R229). -/

/-- A STORE that passes the checks of R210 enters a free buffer entry and completes to the requester with OK; the buffer issues its oldest
unissued STORE to the home while PIPELINED, with no access waiting and no DEVICE line in the buffer. The home's CMP for a drained STORE
frees its buffer entry and its ACK frees the home's tracker entry, which releases the line; a line of a HOLDUP region goes on the
durability list. An abandon notice makes the buffer issue its STORE again. -/
def Obligations.PostedStores : Prop :=
  (∀ (s : State) (c : Core) (n : Fin 8) (a : Access) (tg : Nat), s.core = c → On s → portsUp c = true →
     (dpGet c n).closed = false → (dpGet c n).fifo = [a] → a.req.op = .store → a.req.reg = false → NoFlip c →
     storeCheck c a.req.line = none → (dpGet c n).psb.length < 64 → (dpGet c n).waiting = none → (dpGet c n).loads = [] →
     (dpGet c n).early = [] → dFreeTag (dpGet c n) = some tg → CanSend (dpGet c n).outq (dpGet c n).credits 2 →
     Completes (.storeEntersBuffer n) s (fun t => t = { s with core := t.core } ∧
       t.core = { c with dport := t.core.dport, hist := t.core.hist, wire := t.core.wire } ∧
       dpGet t.core n = { reqFreed c (dpGet c n) with
         fifo := [], credits := spend (dpGet c n).credits 2
         psb := (dpGet c n).psb ++ [{ tag := tg, line := a.req.line, be := a.req.be, data := a.req.data, poison := a.req.poison }] } ∧
       t.core.wire = c.wire ++ reqBack c (epD n) ++ [.flit (epD n) { msg := .cmp, tag := a.utag, rid := 64 + n, line := a.req.line }])) ∧
   (∀ (s : State) (c : Core) (n : Fin 8) (b : Psb), s.core = c → On s → c.st.cur ≠ .flush → NoFlip c →
     (dpGet c n).psb.find? (fun b => !b.issued) = some b → (dpGet c n).waiting = none → (dpGet c n).loads = [] →
     (∀ y ∈ (dpGet c n).psb, isDevice c y.line = false) → (regv c (0x90400 + 0x1000 * n)).getLsbD 0 = false →
     isLocal c b.line = true →
     let r : Req := {
       op := .store, src := epD n, tag := b.tag, rid := 64 + n, line := b.line, be := b.be, data := b.data, poison := b.poison }
     let d := countInj (dpMod c n (fun y => { y with psb := y.psb.map (fun z =>
       if z.tag = b.tag then { z with issued := true, t0 := now c } else z) })) (epD n)
     CoreTo (.storeDrain n) s { d with fab := { d.fab with reqs := d.fab.reqs ++ [r] } }) ∧
  (∀ (s : State) (c : Core) (n : Fin 8) (tag : Nat) (x : Cmp) (b : Psb) (u : Trk), s.core = c → On s →
     cmpFor c (epD n) tag = some x → (dpGet c n).psb.find? (fun b => b.tag == tag) = some b → x.ackreq = true → x.stat = .ok →
     isLocal c b.line = true → c.arr.trk = [u] → Restful c → u.Clear c → ackedAll u = true → u.req.src = epD n →
     u.req.tag = tag → u.second = false → u.passed = true → u.st = .ackWait → u.cmpSent = true → (dpGet c n).fifo = [] →
     (dpGet c n).waiting = none → (dpGet c n).loads = [] → (dpGet c n).early = [] → (dpGet c n).closed = false → lineType c b.line = 1 →
     (match rgnIndex c b.line with | some r => rgnStrict (rgnCur c r) | none => false) = false →
     (dpGet c n).dlist.contains b.line = false → (dpGet c n).dlist.length < 128 →
     Completes (.storeCmp n tag) s (fun t => t = { s with core := t.core } ∧
       t.core = { c with dport := t.core.dport, hist := t.core.hist, fab := t.core.fab, arr := t.core.arr } ∧
       dpGet t.core n = { dpGet c n with
         psb := (dpGet c n).psb.filter (fun z => z.tag != tag), dlist := (dpGet c n).dlist ++ [b.line] } ∧
       t.core.arr.trk = [] ∧
       t.core.fab = { c.fab with cmps := c.fab.cmps.erase x, closeN := c.fab.closeN ++ [(u.slice, u.idx)] })) ∧
   (∀ (s : State) (c : Core) (n : Fin 8) (tag : Nat), s.core = c → On s → c.fab.abandon.contains (n.val, tag) = true →
     CoreTo (.abandonNotice n tag) s
       (dpMod { c with fab := { c.fab with abandon := c.fab.abandon.erase (n.val, tag) } } n (fun y => { y with
         psb := y.psb.map (fun b => if b.tag = tag then { b with issued := false } else b) })))


/-- A waiting FENCE whose older accesses are done completes with OK or with the first failure of its epoch, which it ends; so does a
FENCE_P with nothing on the durability list and no PERSIST of the port outstanding. A FENCE_P with lines on the list first issues one
PERSIST for every line of it, which empties it. -/
def Obligations.FencesComplete : Prop :=
  (∀ (s : State) (c : Core) (n : Fin 8) (a : Access) (i : Instr), s.core = c → On s → portsUp c = true → NoFlip c →
     (dpGet c n).closed = false → (dpGet c n).waiting = some a → dQuiet (dpGet c n) = true → (dpGet c n).fifo = [] →
     (dpGet c n).early = [] → CanSend (dpGet c n).outq (dpGet c n).credits 2 →
     ((i = .fence n ∧ a.req.op = .fence) ∨
       (i = .fenceP n ∧ a.req.op = .fenceP ∧ (dpGet c n).dlist = [] ∧ dEarly (dpGet c n) = false)) →
     Completes i s (fun t => t = { s with core := t.core } ∧
       t.core = { c with dport := t.core.dport, hist := t.core.hist, wire := t.core.wire } ∧
       dpGet t.core n = { dpGet c n with
         waiting := none, fencing := false, epoch := none, credits := spend (dpGet c n).credits 2 } ∧
       t.core.wire = c.wire ++ [.flit (epD n)
         { msg := .cmp, tag := a.utag, rid := 64 + n, stat := ((dpGet c n).epoch).getD .ok, line := a.req.line }])) ∧
  (∀ (s : State) (c : Core) (n : Fin 8) (a : Access), s.core = c → On s → NoFlip c → (dpGet c n).waiting = some a →
     a.req.op = .fenceP → dQuiet (dpGet c n) = true → (dpGet c n).fencing = false → (dpGet c n).dlist ≠ [] →
     (∀ l ∈ (dpGet c n).dlist, isLocal c l = true) →
     (dpGet c n).tags.length + (dpGet c n).psb.length + (dpGet c n).dlist.length ≤ 512 →
     Completes (.fenceP n) s (fun t => t = { s with core := t.core } ∧
       t.core = { c with dport := t.core.dport, hist := t.core.hist, fab := { c.fab with reqs := t.core.fab.reqs } } ∧
       (t.core.fab.reqs.drop c.fab.reqs.length).map (fun r => (r.op, r.src, r.line)) =
         (dpGet c n).dlist.map (fun l => (Op.persist, epD n, l)) ∧
       t.core.fab.reqs.take c.fab.reqs.length = c.fab.reqs ∧
       (dpGet t.core n).dlist = [] ∧ (dpGet t.core n).fencing = true ∧ (dpGet t.core n).waiting = some a))


/-! ### Requests at their home (R102 to R113, R221). -/

/-- RD_ONCE, LOAD and PERSIST of an uncached line whose Clean copy the line cache holds complete at LOOKUP and leave no copy: RD_ONCE with
the line, LOAD with the selected bytes, PERSIST with OK, each with GST = I. -/
def Obligations.ReadsLeaveNoCopy : Prop :=
  ∀ (s : State) (c : Core) (r : Req) (w : Nat) (i : Instr), s.core = c → On s → QuietHome c r →
    sfView c (sliceOf c r.line) r.line = .uncached → lcFind c (sliceOf c r.line) r.line = some w →
    (homeLoc c r.line w).use = .clean →
    ((i = .rdOnce { src := r.src, tag := r.tag } ∧ r.op = .rdOnce) ∨ (i = .load { src := r.src, tag := r.tag } ∧ r.op = .load) ∨
      (i = .persist { src := r.src, tag := r.tag } ∧ r.op = .persist)) →
    Completes i s (fun t => t = { s with core := t.core } ∧ HomeFrame c t.core ∧
      t.core.fab.reqs = c.fab.reqs.erase r ∧
      t.core.fab.cmps = c.fab.cmps ++ [{
        dst := r.src, tag := r.tag, line := r.line, phys := physOf c (sliceOf c r.line), trk := 0
        data := match r.op with
          | .rdOnce => some (homeLoc c r.line w).data
          | .load => some (selectLine r.be (homeLoc c r.line w).data)
          | _ => none
        stat := if r.op ≠ .persist ∧ (homeLoc c r.line w).poison = true then .okPoison else .ok
        poison := r.op != .persist && (homeLoc c r.line w).poison, gst := .i, ackreq := isDirect r }] ∧
      t.core.arr.trk.length = (if isDirect r then 1 else 0) ∧ t.core.arr.sfHome = c.arr.sfHome ∧ t.core.arr.mon = c.arr.mon ∧
      t.core.fab.filtW = c.fab.filtW ∧ t.core.fab.mirW = c.fab.mirW)

/-- RD_SHARED, RD_UNIQUE and CLEAN_UNIQUE of an uncached line that the line cache holds list the requester, SHARED or EXCLUSIVE, in a free
way of the filter set, send the filter copy to the partner, and complete only once its acknowledgment is in. -/
def Obligations.ReadsListRequester : Prop :=
  ∀ (s : State) (c : Core) (r : Req) (w v j : Nat) (i : Instr), s.core = c → On s → QuietHome c r →
    sfView c (sliceOf c r.line) r.line = .uncached → lcFind c (sliceOf c r.line) r.line = some w → sharerIdx r.rid = some j →
    sfFree c (sliceOf c r.line) (sfSet r.line) = some v →
    ((i = .rdShared { src := r.src, tag := r.tag } ∧ r.op = .rdShared) ∨
      (i = .rdUnique { src := r.src, tag := r.tag } ∧ r.op = .rdUnique) ∨
      (i = .cleanUnique { src := r.src, tag := r.tag } ∧ r.op = .cleanUnique)) →
    let e := if r.op = .rdShared then entShared c.pol.exactMax r.line [j] else entExcl r.line j
    Completes i s (fun t => t = { s with core := t.core } ∧ HomeFrame c t.core ∧
      t.core.fab.reqs = c.fab.reqs.erase r ∧
      t.core.arr.sfHome = mput c.arr.sfHome (sfKey (sliceOf c r.line) (sfSet r.line) v) (sfMk e) ∧
      t.core.fab.filtW = c.fab.filtW ++ [{ slice := sliceOf c r.line, trk := 0, set := sfSet r.line, way := v, word := sfMk e }] ∧
      t.core.fab.cmps = c.fab.cmps ∧
      t.core.arr.trk.map (fun u => (u.req, u.st, u.data, u.grant, u.fcopies)) =
        [(r, .mirror, some (homeLoc c r.line w).data, if r.op = .rdShared then .s else .e, 1)])

/-- A write of an uncached line that its home already holds dirty replaces its enabled bytes in place, unmirrored, sends the mirror write,
and completes only once the acknowledgment is in; it cancels the reservations on its granule. A STORE_COND writes where its
requester's reservation still holds the granule; a Pug FILL writes the whole line. -/
def Obligations.WritesReplaceInPlace : Prop :=
  ∀ (s : State) (c : Core) (r : Req) (w : Nat) (i : Instr), s.core = c → On s → QuietHome c r →
    sfView c (sliceOf c r.line) r.line = .uncached → lcFind c (sliceOf c r.line) r.line = some w →
    (homeLoc c r.line w).use = .budgeted → (homeLoc c r.line w).pf = false →
    (lcDirtyWays c (sliceOf c r.line) (lcSet r.line) .budgeted).length < lcL c (sliceOf c r.line) (lcSet r.line) →
    ((i = .wrFull { src := r.src, tag := r.tag } ∧ r.op = .wrFull) ∨
      (i = .wrPartial { src := r.src, tag := r.tag } ∧ r.op = .wrPartial) ∨
      (i = .drainedStore { src := r.src, tag := r.tag } ∧ r.op = .store) ∨
      (i = .storeCond { src := r.src, tag := r.tag } ∧ r.op = .storeCond ∧
        ∃ m, mfind? c.arr.mon (monKey (sliceOf c r.line) r.rid) = some m ∧ m.bad = false ∧ m.granule = r.line / 2 ∧ now c ≤ m.expiry) ∨
      (i = .pugLineAction { src := r.src, tag := r.tag } ∧ r.op = .pug ∧ r.aux = 4)) →
    let whole : Bool := r.op == .wrFull || r.op == .pug || r.be == beAll
    let old := homeLoc c r.line w
    let d := if whole then r.data else mergeLine r.be r.data old.data
    let p := if whole then r.poison else r.poison || old.poison
    Completes i s (fun t => t = { s with core := t.core } ∧ HomeFrame c t.core ∧
      t.core.fab.reqs = c.fab.reqs.erase r ∧
      homeLoc t.core r.line w = { use := .budgeted, line := r.line, poison := p, pin := old.pin, data := d, age := c.arr.age } ∧
      t.core.fab.mirW = c.fab.mirW ++ [{
        slice := sliceOf c r.line, trk := 0, set := lcSet r.line, hway := w, line := r.line, data := d, poison := p, transit := false }] ∧
      t.core.fab.cmps = c.fab.cmps ∧ t.core.arr.sfHome = c.arr.sfHome ∧
      (∀ x ∈ t.core.arr.mon, x.1 / 12 = sliceOf c r.line → x.2.granule ≠ r.line / 2) ∧
      t.core.arr.trk.map (fun u => (u.req, u.st, u.mirrors)) = [(r, .mirror, 1)])

/-- A LOAD_RES of a line whose granule nobody caches takes two tracker entries, which hold both lines of the granule, records the
reservation with its expiry, and completes with the selected bytes and ACKREQ = 1. A Trill prefetch of a line that nobody caches fills it:
a BE_READ of the prefetch class is queued for a free location. -/
def Obligations.LoadResAndPrefetch : Prop :=
  (∀ (s : State) (c : Core) (r : Req) (w : Nat), s.core = c → On s → QuietHome c r → r.op = .loadRes →
     sfView c (sliceOf c r.line) r.line = .uncached → sfView c (sliceOf c r.line) (r.line ^^^ 1) = .uncached →
     lcFind c (sliceOf c r.line) r.line = some w →
     Completes (.loadRes { src := r.src, tag := r.tag }) s (fun t => t = { s with core := t.core } ∧ HomeFrame c t.core ∧
       mfind? t.core.arr.mon (monKey (sliceOf c r.line) r.rid) =
         some { granule := r.line / 2, expiry := now c + 2 ^ (fld (regv c (0x90400 + 0x1000 * (r.rid - 64))) 4 1 + 8) } ∧
       t.core.fab.reqs = c.fab.reqs.erase r ∧
       t.core.fab.cmps = c.fab.cmps ++ [{
         dst := r.src, tag := r.tag, line := r.line, phys := physOf c (sliceOf c r.line), trk := 0
         data := some (selectLine r.be (homeLoc c r.line w).data)
         stat := if (homeLoc c r.line w).poison then .okPoison else .ok, poison := (homeLoc c r.line w).poison, ackreq := true }] ∧
       t.core.arr.trk.map (fun u => (u.idx, u.req.line, u.st)) = [(0, r.line, .ackWait), (1, r.line ^^^ 1, .ackWait)])) ∧
  (∀ (s : State) (c : Core) (r : Req) (v b : Nat), s.core = c → On s → QuietHome c r → r.op = .prefetch →
     sfView c (sliceOf c r.line) r.line = .uncached → lcFind c (sliceOf c r.line) r.line = none → bportOf c r.line = some b →
     lcMayTake c (sliceOf c r.line) (lcSet r.line) = true →
     (List.range 16).find? (fun w => lcIsFree c (physOf c (sliceOf c r.line)) (lcSet r.line) w &&
       (homeLoc c r.line w).use == .invalid) = some v →
     Completes (.trillPrefetch { src := r.src, tag := r.tag }) s (fun t => t = { s with core := t.core } ∧
       t.core = { c with arr := t.core.arr, fab := t.core.fab, reads := t.core.reads, bport := t.core.bport
                         nextBundle := c.nextBundle + 1 } ∧
       t.core.fab = { c.fab with reqs := c.fab.reqs.erase r } ∧
       t.core.reads = c.reads ++ [{
         sn := c.nextBundle, tag := 0, port := b, slice := sliceOf c r.line, phys := physOf c (sliceOf c r.line), trk := 0
         line := r.line, pref := true, way := some v, t0 := now c }] ∧
       bpGet t.core b = { bpGet c b with queue := (bpGet c b).queue ++
         [{ rq := 4 * sliceOf c r.line + 2, isRead := true, id := c.nextBundle, t0 := now c }] }))


/-- A request for a line of the Ware window acts at LOOKUP and completes: a read returns the bytes that are written, a write stores its
enabled bytes, and neither touches the filter or the line cache (R101, R190). -/
def Obligations.WareLinesActAtLookup : Prop :=
  ∀ (s : State) (c : Core) (r : Req) (i : Instr), s.core = c → On s → c.arr.trk = [] → c.arr.waits = [] → NoFlip c → c.ending = false →
    destHeld c r.line = false → c.fabric.taken.contains (sliceOf c r.line) = false → setHeld c (sliceOf c r.line) (sfSet r.line) = false →
    sfSetOk c (sliceOf c r.line) (sfSet r.line) = true → (∀ p ∈ c.arr.lc, p.2.tbad = false) →
    c.fab.reqs.find? (fun q => q.src == r.src && q.tag == r.tag && q.op == r.op) = some r → firstOf c r = true →
    lineType c r.line = 3 → wareIn c r.line = true → c.lcStop = false → roleOf c (sliceOf c r.line) = .active →
    (let lo := wareLoc (wareOff c r.line)
     lcDisabled c (physOf c lo.1) lo.2.1 lo.2.2 = false) →
    (mget c.arr.ware (wareOff c r.line) {}).known = beAll → (mget c.arr.ware (wareOff c r.line) {}).bad = false →
    ((i = .rdOnce { src := r.src, tag := r.tag } ∧ r.op = .rdOnce) ∨ (i = .load { src := r.src, tag := r.tag } ∧ r.op = .load) ∨
      (i = .wrFull { src := r.src, tag := r.tag } ∧ r.op = .wrFull) ∨
      (i = .wrPartial { src := r.src, tag := r.tag } ∧ r.op = .wrPartial) ∨
      (i = .drainedStore { src := r.src, tag := r.tag } ∧ r.op = .store)) →
    let old := mget c.arr.ware (wareOff c r.line) {}
    let write : Bool := r.op == .wrFull || r.op == .wrPartial || r.op == .store
    Completes i s (fun t => t = { s with core := t.core } ∧
      t.core = { c with arr := { c.arr with trk := t.core.arr.trk, inputRR := t.core.arr.inputRR, ware := t.core.arr.ware }
                        fab := t.core.fab, hist := t.core.hist } ∧
      t.core.fab.cmps = c.fab.cmps ++ [{
        dst := r.src, tag := r.tag, line := r.line, phys := physOf c (sliceOf c r.line), trk := 0
        data := match r.op with
          | .rdOnce => some old.data
          | .load => some (selectLine r.be old.data)
          | _ => none
        ackreq := isDirect r }] ∧
      (write = false → t.core.arr.ware = c.arr.ware) ∧
      (write = true → mget t.core.arr.ware (wareOff c r.line) {} = {
        data := mergeLine (if r.op = .wrFull then beAll else r.be) r.data old.data, known := beAll, bad := r.poison }))

/-- A write-back of its EXCLUSIVE holder to a free line takes a write-back entry and makes the filter entry INVALID, here and by a
filter-copy write in the partner; a WB_DIRTY also writes its data dirty at the home, and its mirror write carries that filter-copy write.
Neither completes before the acknowledgments. -/
def Obligations.WriteBacksLeaveFilter : Prop :=
  ∀ (s : State) (c : Core) (r : Req) (w v j : Nat) (i : Instr), s.core = c → On s → QuietHome c r →
    sfView c (sliceOf c r.line) r.line = .excl v j → sharerIdx r.rid = some j →
    ((i = .evictClean (.moving { src := r.src, tag := r.tag }) ∧ r.op = .evictClean) ∨
      (i = .wbDirty (.moving { src := r.src, tag := r.tag }) ∧ r.op = .wbDirty ∧
        lcFind c (sliceOf c r.line) r.line = some w ∧ (homeLoc c r.line w).use = .budgeted ∧
        (lcDirtyWays c (sliceOf c r.line) (lcSet r.line) .budgeted).length < lcL c (sliceOf c r.line) (lcSet r.line))) →
    Completes i s (fun t => t = { s with core := t.core } ∧ HomeFrame c t.core ∧
      t.core.fab.reqs = c.fab.reqs.erase r ∧
      t.core.arr.sfHome = mput c.arr.sfHome (sfKey (sliceOf c r.line) (sfSet r.line) v) (sfMk 0) ∧
      t.core.fab.cmps = c.fab.cmps ∧ t.core.arr.trk.map (fun u => (u.req, u.idx, u.st)) = [(r, 208, .mirror)] ∧
      let f : FiltW := { slice := sliceOf c r.line, trk := 208, set := sfSet r.line, way := v, word := sfMk 0 }
      (r.op = .evictClean → t.core.fab.filtW = c.fab.filtW ++ [f]) ∧
      (r.op = .wbDirty → t.core.fab.filtW = c.fab.filtW ∧
        (homeLoc t.core r.line w).data = r.data ∧ (homeLoc t.core r.line w).poison = r.poison ∧
        (homeLoc t.core r.line w).mirrored = false ∧
        t.core.fab.mirW = c.fab.mirW ++ [{
          slice := sliceOf c r.line, trk := 208, set := lcSet r.line, hway := w, line := r.line, data := r.data, poison := r.poison
          transit := false, filt := some f }]))

/-- R220: a LOAD_RES or STORE_COND of a line of another member instance completes with ERR_PROTECT at the D-port; it reaches no home and
changes no reservation. Its boundary entry's credit goes back, and a STORE_COND counts among those with RES = 0. -/
def Obligations.RemoteReservationsRefused : Prop :=
  ∀ (s : State) (c : Core) (n : Fin 8) (f : Flit), s.core = c → On s → DirectTakes c n → NoFlip c →
    fate [0] f = .good → statBad f = false → fReg f = false → (fMsg f = some .loadRes ∨ fMsg f = some .storeCond) →
    dTagUsed (dpGet c n) (fTag f) = false → dOut (dpGet c n) < 256 → instOk c (fLine f) = true → isLocal c (fLine f) = false →
    CanSend (dpGet c n).outq (dpGet c n).credits (if fMsg f = some .loadRes then 3 else 2) →
    Completes (.reqIngress (.dport n f)) s (fun t => t = { s with core := t.core } ∧
      t.core = { c with dport := t.core.dport, hist := t.core.hist, wire := t.core.wire, ctr := t.core.ctr } ∧
      (dpGet t.core n).granule = (dpGet c n).granule ∧ (dpGet t.core n).tags = (dpGet c n).tags ∧
      (dpGet t.core n).inCrd = (if reqHeld c then spend (dpGet c n).inCrd 0 else (dpGet c n).inCrd) ∧
      (fMsg f = some .loadRes → t.core.ctr = c.ctr) ∧
      (fMsg f = some .storeCond → ctrv t.core (0x90418 + 0x1000 * n) = (ctrv c (0x90418 + 0x1000 * n) + 1) % 2 ^ 32) ∧
      t.core.wire = c.wire ++ reqBack c (epD n) ++ [.flit (epD n) (errFlit (fMsg f) (fTag f) (64 + n) (fLine f) .errProtect)])


/-! ### Answers, ACKs, forwards and completions (R52, R56, R81, R89 to R91, R337). -/

/-- A snoop answer of a C-port agent that is not marked crossing reaches the tracker that awaits it: the port's open snoop and the
tracker's are closed, the state that the answer reports is noted, and the flit's credit goes back. SNP_RESP_DATA also brings the line's value:
clean data, of a line that the cache holds or that the transaction replaces, is released at the port at once; dirty data is written by the
two-copy sequence, and the port keeps it until the home's hold notice. -/
def Obligations.SnoopAnswersReachTracker : Prop :=
  ∀ (s : State) (c : Core) (p : Fin 16) (f : Flit) (m : Msg) (q : PortSnoop) (t : Trk) (sn : Snoop), s.core = c → On s →
    CanTake c p (fClass f) → NoFlip c → fate [0, 2, 3, 4] f = .good → statBad f = false → fMsg f = some m →
    (cpGet c p).snoops.find? (fun y => y.agent == cRid p f && y.line == fLine f && y.trk == fTag f) = some q →
    crossing (cpGet c p) (cRid p f) (fLine f) = false → q.phys < 1000 → c.out.contains q.phys = false →
    trkAns c (fLine f) (fTag f) = some t → t.snoops.find? (fun y => y.who == cRid p f) = some sn → Calm c →
    t.st = .gather → t.passed = true → t.fwd = none → t.newEnt = none → t.snoops.erase sn ≠ [] →
    let noted := noteState { t with snoops := t.snoops.erase sn } (cRid p f) (fGst f)
    let back : Driven := .credit (epC p) (fClass f) 1
    let d := countInj (cpMod c p (fun y => { y with snoops := y.snoops.erase q })) (epC p)
    (∀ i : Instr, ((i = .snpResp (.cport p f) ∧ m = .snpResp ∧ Msg.isFwd sn.msg = false ∧
          (fGst f = .i → sn.msg = .snpInval ∨ t.holder ≠ some (cRid p f))) ∨
        (i = .fwdDone (.cport p f) ∧ m = .fwdDone)) →
      CoreTo i s { trkPut d noted with wire := d.wire ++ [back] }) ∧
    (m = .snpRespData → storeRoom (cpGet c p) 3 = true → q.phys = t.phys →
      let rec_ : DataRec := { agent := cRid p f, line := fLine f, phys := q.phys, trk := fTag f, data := f.pay, poison := fPoison f }
      (t.mirrors = 0 → c.fab.holdN.contains (recRef (cRid p f) q.phys (fTag f)) = false →
        (isWhole t = true ∧ t.stat.isErr = false ∨ fDirty f = false ∧ (lcFind c t.slice t.req.line).isSome = true) →
        Completes (.snpRespData (.cport p f)) s (fun u => u = { s with core := u.core } ∧
          u.core = { c with cport := u.core.cport, hist := u.core.hist, wire := c.wire ++ [back], arr := u.core.arr, fab := u.core.fab } ∧
          u.core.arr = (trkPut c { noted with data := some f.pay, poison := fPoison f }).arr ∧
          (cpGet u.core p).snoops = (cpGet c p).snoops.erase q ∧ (cpGet u.core p).recs = (cpGet c p).recs ++ [rec_] ∧
          u.core.fab = { c.fab with holdN := c.fab.holdN ++ [recRef (cRid p f) q.phys (fTag f)] })) ∧
      (∀ w, fDirty f = true → isWhole t = false → t.slice = sliceOf c t.req.line → lcFind c t.slice t.req.line = some w →
        (homeLoc c t.req.line w).use = .budgeted →
        (lcDirtyWays c t.slice (lcSet t.req.line) .budgeted).length < lcL c t.slice (lcSet t.req.line) →
        Completes (.snpRespData (.cport p f)) s (fun u => u = { s with core := u.core } ∧
          u.core = { c with
            cport := u.core.cport, hist := u.core.hist, wire := c.wire ++ [back], arr := u.core.arr, fab := u.core.fab } ∧
          (cpGet u.core p).snoops = (cpGet c p).snoops.erase q ∧ (cpGet u.core p).recs = (cpGet c p).recs ++ [rec_] ∧
          (homeLoc u.core t.req.line w).data = f.pay ∧ (homeLoc u.core t.req.line w).poison = fPoison f ∧
          (homeLoc u.core t.req.line w).mirrored = false ∧
          u.core.fab = { c.fab with mirW := c.fab.mirW ++ [{
            slice := t.slice, trk := t.idx, set := lcSet t.req.line, hway := w, line := t.req.line, data := f.pay, poison := fPoison f
            transit := false }] } ∧
          trkGet u.core t.slice t.idx = some { noted with
            data := some f.pay, poison := fPoison f, mirrors := t.mirrors + 1, sentAt := now c })))


/-- A completion that reaches its C-port, from the home or forwarded by an owner, is matched by its internal tag and driven with the
requester's RID and TAG; with ACKREQ = 1, as every forwarded one has it, the tag then waits for the ACK. Data that fails its payload check at
the port, and again after the resend, is driven as poisoned and latches DATA_REFAIL. An ACK of a C-port agent closes
the internal tag that awaits it, and the home releases the line: the tracker entry becomes free and the close notice leaves for the
partner. -/
def Obligations.CompletionsAndAcks : Prop :=
  (∀ (s : State) (c : Core) (p : Fin 16) (tag : Nat) (x : Cmp) (g : Tag), s.core = c → On s → portsUp c = true → NoFlip c →
     (cpGet c p).closed = false → (cpGet c p).inq = [] → cmpFor c (epC p) tag = some x →
     (cpGet c p).tags.find? (fun t => t.tag == tag) = some g →
     g.phase = .opened → g.dead = false → g.req.op.isWb = false → x.stat.isErr = false →
     CanSend (cpGet c p).outq (cpGet c p).credits (if x.data.isSome then 3 else 2) →
     (x.data.isSome = true → (c.fab.cmps.filter (fun y => y == x)).length = 1 →
       Completes (.completionEgress { src := epC p, tag := tag, refails := true }) s (fun t => t = { s with core := t.core } ∧
         flagv t.core 0x20100 10 = true ∧ t.core.wire = c.wire ++ [.flit (epC p) {
           msg := .cmpData, tag := g.utag, rid := g.req.rid, stat := .okPoison, poison := true, line := x.line, gst := x.gst, res := x.res
           ackreq := x.ackreq, dv := true, data := x.data.getD 0, be := beAll }])) ∧
     Completes (.completionEgress { src := epC p, tag := tag }) s (fun t => t = { s with core := t.core } ∧
       t.core = { c with cport := t.core.cport, hist := t.core.hist, wire := t.core.wire, fab := t.core.fab } ∧
       t.core.fab = { c.fab with cmps := c.fab.cmps.erase x } ∧
       (cpGet t.core p).tags = (if x.ackreq then (cpGet c p).tags.map (fun z =>
           if z = g then { z with phase := .ackWait, phys := x.phys, trk := x.trk } else z) else (cpGet c p).tags.erase g) ∧
       t.core.wire = c.wire ++ [.flit (epC p) {
         msg := if x.data.isSome then .cmpData else .cmp, tag := g.utag, rid := g.req.rid, stat := x.stat, poison := x.poison
         line := x.line, gst := x.gst, res := x.res, ackreq := x.ackreq, dv := x.data.isSome, data := x.data.getD 0
         be := if x.data.isSome then beAll else 0 }])) ∧
   (∀ (s : State) (c : Core) (p q : Fin 16) (f : Flit) (g : Tag) (st : Stat), s.core = c → On s → CanTake c p 3 → NoFlip c →
     fate [0, 2, 3, 4] f = .good → fMsg f = some .cmpData → codeStat (fStat f) = some st →
     st.isErr = false → fRid f / 4 = q → (cpGet c q).closed = false →
     (cpGet c q).tags.find? (fun t => t.tag == fTag f && t.req.rid == fRid f && t.phase != .ackWait && !t.req.op.isWb) = some g →
     g.phase = .opened → g.dead = false → CanSend (cpGet c q).outq (cpGet c q).credits 3 →
     Completes (.forwardedCmpData (.cport p f)) s (fun t => t = { s with core := t.core } ∧
       t.core = { c with cport := t.core.cport, hist := t.core.hist, wire := t.core.wire } ∧
       (cpGet t.core q).tags = (cpGet c q).tags.map (fun z =>
         if z = g then { z with phase := .ackWait, phys := 0, trk := 0 } else z) ∧
       t.core.wire = c.wire ++ [.flit (epC q) {
         msg := .cmpData, tag := g.utag, rid := fRid f, stat := if fPoison f then .okPoison else st, poison := fPoison f
         line := fLine f, gst := fGst f, ackreq := true, dv := true, data := f.pay, be := beAll }, .credit (epC p) 3 1])) ∧
  (∀ (s : State) (c : Core) (p : Fin 16) (f : Flit) (g : Tag) (u : Trk), s.core = c → On s → CanTake c p 2 → NoFlip c →
     fate [0, 2, 3, 4] f = .good → statBad f = false → fMsg f = some .ack →
     (cpGet c p).tags.find? (fun t => t.phase == .ackWait && t.req.rid == cRid p f && t.utag == fTag f) = some g →
     isLocal c g.req.line = true → c.arr.trk = [u] → Restful c → u.Clear c → ackedAll u = true →
     u.req.src = g.req.src → u.req.tag = g.req.tag → u.second = false → u.passed = true → u.st = .ackWait →
     (u.cmpSent || u.forwarded) = true →
     Completes (.ack (.cport p f)) s (fun t => t = { s with core := t.core } ∧
       t.core = { c with
         cport := t.core.cport, hist := t.core.hist, arr := t.core.arr, fab := t.core.fab, wire := c.wire ++ [.credit (epC p) 2 1] } ∧
       cpGet t.core p = { cpGet c p with tags := (cpGet c p).tags.erase g } ∧ t.core.arr.trk = [] ∧
       t.core.fab = { c.fab with closeN := c.fab.closeN ++ [(u.slice, u.idx)] }))

/-- A credit returned to an open port is kept, or sends the flit that waits for it. A hold notice releases the reissue record that it
names at a C-port. -/
def Obligations.CreditsAndHoldNotices : Prop :=
  (∀ (s : State) (c : Core) (p : Fin 16) (k : Fin 6) (f : OutFlit), s.core = c → On s → portsUp c = true →
    (cpGet c p).closed = false → (cpGet c p).credits.length = 6 →
    ((cpGet c p).outq = [] → CoreTo (.outboundCredit (.c p) k) s
      (cpMod c p (fun y => { y with credits := earn y.credits k 1 }))) ∧
    ((cpGet c p).outq = [f] → msgCls f.msg = k → credit (cpGet c p).credits k = 0 →
      Completes (.outboundCredit (.c p) k) s (fun t => t = { s with core := t.core } ∧
        t.core = { c with cport := t.core.cport, wire := t.core.wire } ∧
        (cpGet t.core p).outq = [] ∧ credit (cpGet t.core p).credits k = 0 ∧ t.core.wire = c.wire ++ [.flit (epC p) f]))) ∧
  (∀ (s : State) (c : Core) (n : Fin 8) (k : Fin 6), s.core = c → On s → portsUp c = true → (dpGet c n).closed = false →
    (dpGet c n).outq = [] → CoreTo (.outboundCredit (.d n) k) s
      (dpMod c n (fun y => { y with credits := earn y.credits k 1 }))) ∧
  (∀ (s : State) (c : Core) (b : Fin 16) (k : Fin 6), s.core = c → On s → (bpGet c b).closed = false →
    CoreTo (.outboundCredit (.b b) k) s (bpMod c b (fun y => { y with credits := earn y.credits k 1 }))) ∧
  (∀ (s : State) (c : Core) (p : Fin 16) (tag : Nat), s.core = c → On s → (cpGet c p).inq = [] →
    c.fab.holdN.contains { src := epC p, tag := tag } = true →
    CoreTo (.holdNotice { src := epC p, tag := tag }) s
      (cpMod { c with fab := { c.fab with holdN := c.fab.holdN.erase { src := epC p, tag := tag } } } p (fun y => { y with
        tags := y.tags.map (fun t => if t.tag = tag then { t with held := false } else t)
        recs := y.recs.filter (fun d => recRef d.agent d.phys d.trk != { src := epC p, tag := tag }) })))

/-- When the ingress timeout of an open request expires its C-port answers the requester with ERR_TIMEOUT, counts the timeout and keeps
the internal tag out of use. A local agent whose snoop times out, and that does not hold the line EXCLUSIVE, counts as having answered GST
= I, and its port reports PROTO_ERR. A BE_READ whose timeout expires ends its read: the waiting RD_ONCE completes with ERR_TIMEOUT and the
TAG stays out of use. A bundle attempt whose timeout expires is over: its line waits again for a new attempt, under a new TAG. -/
def Obligations.TimeoutsExpire : Prop :=
  (∀ (s : State) (c : Core) (p : Fin 16) (tag : Nat) (g : Tag), s.core = c → On s → portsUp c = true → (cpGet c p).closed = false → tag < 1024 →
     (cpGet c p).tags.find? (fun t => t.tag == tag && t.phase == .opened) = some g → g.dead = false → g.t0 + reqTmo c ≤ now c →
     isLocal c g.req.line = true → NoFlip c →
     CanSend (cpGet c p).outq (cpGet c p).credits (if readMsg (opMsg g.req.op) then 3 else 2) →
     Completes (.ingressTimeout { src := epC p, tag := tag }) s (fun t => t = { s with core := t.core } ∧
       t.core = { c with cport := t.core.cport, wire := t.core.wire, ctr := t.core.ctr } ∧
       (cpGet t.core p).tags = (cpGet c p).tags.map (fun z => if z = g then { z with phase := .expired } else z) ∧
       ctrv t.core 0x6000C = min (ctrv c 0x6000C + 1) 255 ∧
       t.core.wire = c.wire ++ [.flit (epC p)
         (errFlit (some (opMsg g.req.op)) g.utag g.req.rid g.req.line .errTimeout)])) ∧
   (∀ (s : State) (c : Core) (h : Fin 32) (k : Nat) (a : Fin 64) (u : Trk), s.core = c → On s → trkGet c h k = some u →
     (u.snoops.any (fun x => x.who == a.val && decide (x.t0 + snpTmo c ≤ now c))) = true → u.holder ≠ some a.val →
     attachedOf u a = false → trkAns c u.req.line k = some u → Calm c → u.st = .gather → u.passed = true → u.fwd = none →
     u.newEnt = none → u.snoops.filter (fun x => x.who != a.val) ≠ [] → u.req.op ≠ .rdShared →
     Completes (.snoopTimeout h k a) s (fun t => t = { s with core := t.core } ∧
       ctrv t.core 0x6000D = min (ctrv c 0x6000D + 1) 255 ∧ flagv t.core (0x80000 + 0x1000 * (a.val / 4)) 3 = true ∧
       t.core.arr = (trkPut c { u with
         snoops := u.snoops.filter (fun x => x.who != a.val), gone := u.gone ++ [a.val] }).arr)) ∧
  (∀ (s : State) (c : Core) (b : Fin 16) (tag : Nat) (r : Read) (u : Trk), s.core = c → On s → NoFlip c → tag < 0x400 →
     c.reads.find? (fun r => r.port == b.val && (r.st == .out || r.st == .held) && r.tag == tag) = some r → r.st = .out →
     r.t0 + beRdTmo c b ≤ now c → c.arr.trk = [u] → u.slice = r.slice → u.idx = r.trk → u.fill = .out r.sn → u.data = none →
     u.req.op = .rdOnce → isDirect u.req = false → u.passed = true → u.st = .gather → gathering u = false → u.dirtyIn = none →
     u.lateFilter = false → ackedAll u = true → u.second = false → u.wbs = [] → u.mate = none → u.forwarded = false →
     u.cmpSent = false → u.stat = .ok → u.grant = .i → u.bundle = none → u.leave = [] → c.ending = false →
     Restful c → c.keyNext = [] → dirtyLoc c u.req.line = none →
     Completes (.beReadTimeout b tag) s (fun t => t = { s with core := t.core } ∧
       t.core.fab.cmps = c.fab.cmps ++ [{
         dst := u.req.src, tag := u.req.tag, data := some 0, stat := .errTimeout, line := u.req.line, phys := u.phys, trk := u.idx }] ∧
       t.core.arr.trk = [] ∧ t.core.reads = c.reads.filter (fun x => x.sn != r.sn) ∧
       (bpGet t.core b).deadTags = (bpGet c b).deadTags ++ [tag] ∧ ctrv t.core 0x6000E = min (ctrv c 0x6000E + 1) 255)) ∧
   (∀ (s : State) (c : Core) (b : Fin 16) (tag : Nat) (x : Bundle) (y : BLine), s.core = c → On s → NoFlip c →
     bundleOf c b tag = some x → x.t0 + beWrTmo c ≤ now c → x.lines = [y] → stillIn c x y.line = true →
     (c.bundles.map (fun z => z.id)).Nodup → c.keyNext = [] → Calm c →
     Completes (.bundleTimeout b tag) s (fun t => t = { s with core := t.core } ∧
       t.core = { c with bport := t.core.bport, bundles := t.core.bundles, ctr := t.core.ctr } ∧
       bunGet t.core x.id = some { x with st := .formed, tag := none, sentFlits := 0, preempts := 0 } ∧
       (∃ m ∈ (bpGet t.core b).queue, m.isRead = false ∧ m.id = x.id) ∧
       (bpGet t.core b).deadTags = (bpGet c b).deadTags ++ [tag] ∧ ctrv t.core 0x6000F = min (ctrv c 0x6000F + 1) 255))

/-! ### The partner slice (R95 to R97, R151, R153). -/

/-- The partner's part: a mirror write rewrites the line's mirror location, stores the filter-copy write that it carries, and is
acknowledged; data that fails its check twice is stored as poison, with the alarm; a location that fails its write check is given up for
another one. A filter-copy write stores the entry and is acknowledged; both note the changed line under the home's tracker. A mirror
release frees the mirror of a line that is not dirty; a close notice frees the change records of its tracker. The partner's
acknowledgments reach the home: the last mirror acknowledgment marks the line's dirty location mirrored, and each lessens what its
transaction awaits. -/
def Obligations.PartnerActs : Prop :=
  (∀ (s : State) (c : Core) (h : Fin 32) (k w : Nat) (m : MirW), s.core = c → On s → NoFlip c →
     c.fab.mirW.find? (fun m => m.slice == h.val && m.trk == k) = some m → mirFind c h m.line = some w →
     lcDisabled c (physOf c (partnerOf h)) m.set w = false → m.set = lcSet m.line →
     let mirror : Loc := { use := .mirror, line := m.line, poison := m.poison, hway := m.hway, data := m.data }
     Completes (.mirrorWrite h { trk := k }) s (fun t => t = { s with core := t.core } ∧
       t.core = { c with arr := { c.arr with lc := t.core.arr.lc, sfPart := t.core.arr.sfPart, changes := t.core.arr.changes }
                         fab := { c.fab with mirW := c.fab.mirW.erase m, mirA := c.fab.mirA ++ [(h.val, k)] } } ∧
       t.core.arr.sfPart = (match m.filt with
         | some f => mput c.arr.sfPart (sfKey h f.set f.way) f.word
         | none => c.arr.sfPart) ∧
       lcRd t.core (physOf c (partnerOf h)) m.set w = mirror ∧
       (∃ r ∈ t.core.arr.changes, r.slice = h.val ∧ r.trk = k ∧ m.line ∈ r.lines)) ∧
     Completes (.mirrorWrite h { trk := k, fault := .refails }) s (fun t => t = { s with core := t.core } ∧
       t.core.fab = { c.fab with mirW := c.fab.mirW.erase m, mirA := c.fab.mirA ++ [(h.val, k)] } ∧
       flagv t.core 0x20100 10 = true ∧ lcRd t.core (physOf c (partnerOf h)) m.set w = { mirror with poison := true }) ∧
     (∀ v, (lcPickBut (lcFailed c (physOf c (partnerOf h)) m.set w) (physOf c (partnerOf h)) m.line (some w)).1 = some v →
       Completes (.mirrorWrite h { trk := k, fault := .badWay }) s (fun t => t = { s with core := t.core } ∧ v ≠ w ∧ (h.val, k) ∈ t.core.fab.mirA ∧
         lcRd t.core (physOf c (partnerOf h)) m.set v = mirror))) ∧
   (∀ (s : State) (c : Core) (h : Fin 32) (k : Nat) (m : FiltW), s.core = c → On s →
     c.fab.filtW.find? (fun m => m.slice == h.val && m.trk == k) = some m →
     Completes (.filterCopyWrite h k) s (fun t => t = { s with core := t.core } ∧
       t.core = { c with arr := { c.arr with sfPart := mput c.arr.sfPart (sfKey h m.set m.way) m.word, changes := t.core.arr.changes }
                         fab := { c.fab with filtW := c.fab.filtW.erase m, filtA := c.fab.filtA ++ [(h.val, k)] } } ∧
       (∀ u, trkGet c h k = some u → ∃ r ∈ t.core.arr.changes, r.slice = h.val ∧ r.trk = k ∧ u.req.line ∈ r.lines))) ∧
   (∀ (s : State) (c : Core) (h : Fin 32) (line w : Nat), s.core = c → On s → c.fab.mirRel.contains (h.val, line) = true →
     mirFind c h line = some w → dirtyLoc c line = none → c.fab.mirW.any (fun m => m.line == line) = false →
     CoreTo (.mirrorRelease h line) s (lcFree { c with fab := { c.fab with mirRel := c.fab.mirRel.erase (h.val, line) } }
       (physOf c (partnerOf h)) (lcSet line) w)) ∧
   (∀ (s : State) (c : Core) (h : Fin 32) (k : Nat), s.core = c → On s → c.fab.closeN.contains (h.val, k) = true →
     CoreTo (.closeNotice h k) s { c with
       fab := { c.fab with closeN := c.fab.closeN.erase (h.val, k) }
       arr := { c.arr with changes := c.arr.changes.filter (fun r => !(r.slice == h.val && r.trk == k)) } }) ∧
  (∀ (s : State) (c : Core) (h : Fin 32) (k ph cs w : Nat) (l : Loc) (u : Trk), s.core = c → On s →
     c.fab.mirA.contains (h.val, k) = true → trkGet c h k = some u → u.mirrors = 1 → u.fcopies ≠ 0 → u.passed = true →
     u.st = .mirror → Calm c → dirtyLoc c u.req.line = some (ph, cs, w, l) →
     Completes (.mirrorAck h k) s (fun t => t = { s with core := t.core } ∧
       t.core = { c with arr := t.core.arr, fab := { c.fab with mirA := c.fab.mirA.erase (h.val, k) } } ∧
       lcRd t.core ph cs w = { l with mirrored := true } ∧ trkGet t.core h k = some { u with mirrors := 0, both := false } ∧
       heldOf t.core u.req.line = none)) ∧
   (∀ (s : State) (c : Core) (h : Fin 32) (k : Nat) (u : Trk), s.core = c → On s → c.fab.filtA.contains (h.val, k) = true →
     trkGet c h k = some u → u.mirrors ≠ 0 → u.passed = true → u.st = .mirror → Calm c →
     CoreTo (.filterCopyAck h k) s (trkPut { c with fab := { c.fab with filtA := c.fab.filtA.erase (h.val, k) } }
       { u with fcopies := u.fcopies - 1 }))


/-- A set read is answered by the partner with its 16 ways once no filter-copy write of the set is outstanding. Its reply rewrites each
home way that fails its check from the partner's good copy, tells of it, and leaves every other way of the filter as it was. -/
def Obligations.SetRecovery : Prop :=
  (∀ (s : State) (c : Core) (h : Fin 32) (x : Fin 4096), s.core = c → On s → copyPending c h x = false →
    CoreTo (.setReadRequest h x) s { c with arr := { c.arr with setRec := c.arr.setRec.map (fun r =>
      if r.slice = h.val ∧ r.set = x.val ∧ !r.sent then
        { r with sent := true, reply := some ((List.range 16).map (fun w => sfRdP c h x w)), t0 := now c } else r) } }) ∧
  (∀ (s : State) (c : Core) (h : Fin 32) (x : Fin 4096) (r : SetRec) (l : List SfWord), s.core = c → On s → NoFlip c →
    c.arr.setRec.find? (fun r => r.slice == h.val && r.set == x.val && r.reply.isSome) = some r → r.reply = some l →
    l.length = 16 → (∀ y ∈ l, sfWordOk c.dom.inst y = true) → c.arr.fails = [] → c.arr.trk = [] → Restful c →
    Completes (.setReadReply h x) s (fun t => t = { s with core := t.core } ∧
      t.core = { c with
        arr := { c.arr with sfHome := t.core.arr.sfHome, setRec := c.arr.setRec.erase r, fails := t.core.arr.fails }
        flue := t.core.flue, flags := t.core.flags } ∧
      (∀ w < 16, sfRd t.core h x w = if sfWordOk c.dom.inst (sfRd c h x w) then sfRd c h x w else l.getD w {}) ∧
      (∀ k, k / 16 ≠ h.val * 4096 + x.val → mget t.core.arr.sfHome k {} = mget c.arr.sfHome k {}) ∧
      ((∀ w < 16, sfWordOk c.dom.inst (sfRd c h x w) = true) → t.core.flue = c.flue ∧ t.core.flags = c.flags)))

/-- A transaction that waits for a way of a full set gets a victim: an internal entry snoops the victim's one holder with SNP_INVAL and
counts the back-invalidation. The sweep of a lost set takes the next line that it keeps under an internal entry with a Bourdon slot, notes
how far it has come, and waits the 2^SWEEP_RATE ticks between lines. -/
def Obligations.VictimsAndSweeps : Prop :=
  (∀ (s : State) (c : Core) (h : Fin 32) (k v a : Nat) (u : Trk), s.core = c → On s → portsUp c = true → c.arr.trk = [u] →
     Restful c → c.arr.waits = [] → u.Clear c → NoFlip c → u.slice = h.val → u.idx = k → k < 208 → u.req.op ≠ .backInval →
     u.victim = true → u.way = none →
     u.passed = true → u.st = .gather → u.fwd = none → sfFree c h (sfSet u.req.line) = none →
     sfVictim c h (sfSet u.req.line) = (some v, c) → roleOf c h = .active →
     eSharers c (sfRd c h (sfSet u.req.line) v).bits = [a] → a < 64 → (cpGet c (a / 4)).closed = false →
     Completes (.backInvalidation h k) s (fun t => t = { s with core := t.core } ∧
       (∃ y ∈ t.core.arr.trk, y.req.op = .backInval ∧ y.idx = 240 ∧ y.mate = some k ∧ y.way = some v ∧
         y.req.line = eLine c (sfSet u.req.line) (sfRd c h (sfSet u.req.line) v).bits ∧
         y.snoops.map (fun z => (z.who, z.msg)) = [(a, .snpInval)]) ∧
       ctrv t.core (0x100408 + 0x10000 * h) = (ctrv c (0x100408 + 0x10000 * h) + 1) % 2 ^ 48 ∧
       t.core.arr.sfHome = c.arr.sfHome)) ∧
  (∀ (s : State) (c : Core) (h : Fin 32) (x : LostSet) (n : Nat), s.core = c → On s → portsUp c = true → c.arr.trk = [] →
     c.arr.waits = [] → c.ending = false → Restful { c with arr := { c.arr with lost := [] } } → NoFlip c →
     c.arr.lost = [x] → x.slice = h.val → x.covered = true → x.next < 2 ^ 26 →
     (cpGet c 0).resetIn = false → (cpGet c 0).closed = false →
     sweepFind c h x.set (2 ^ 26 - x.next) x.next = some n → n + 1 < 2 ^ 26 →
     (x.lastAt + 2 ^ fld (regv c (0x100420 + 0x10000 * h)) 3 0 ≤ now c →
       Completes (.sweepLine h) s (fun t => t = { s with core := t.core } ∧
         t.core.arr.lost = [{ x with next := n + 1, lastAt := now c }] ∧
         (∃ y ∈ t.core.arr.trk, y.req.op = .sweep ∧ y.req.line = sweepAt c x.set n ∧ y.slot = true ∧
           (∀ z ∈ y.snoops, z.msg = .snpInval) ∧ ∃ z ∈ y.snoops, z.who = 0))) ∧
     (now c < x.lastAt + 2 ^ fld (regv c (0x100420 + 0x10000 * h)) 3 0 → CoreTo (.sweepLine h) s c))


/-- The Bourdon grants a slot to a waiting RD_ONCE of a covered line: it passes LOOKUP and snoops the line's EXCLUSIVE holder. A monitor
entry whose expiry time has passed is cancelled, and no other entry with it. -/
def Obligations.SlotsAndReservations : Prop :=
  (∀ (s : State) (c : Core) (h : Fin 32) (k v a : Nat) (u : Trk) (x : LostSet), s.core = c → On s → portsUp c = true →
    c.arr.trk = [u] → u.slice = h.val → u.idx = k → u.st = .bourdon → u.slot = false → u.req.op = .rdOnce → u.mate = none →
    u.snoops = [] → u.fwd = none → u.newEnt = none → u.gone = [] → u.awaitWb = [] →
    c.arr.lost = [x] → x.slice = h.val → x.set = sfSet u.req.line → x.covered = true → x.next < 2 ^ 26 →
    Restful { c with arr := { c.arr with lost := [] } } → u.Clear c → u.second = false → sliceStops c h = false → NoFlip c → c.ending = false → lineType c u.req.line = 1 → (bportOf c u.req.line).isSome = true → above16T u.req.line = false →
    setHeld c h (sfSet u.req.line) = false → sfSetOk c h (sfSet u.req.line) = true →
    (∀ p ∈ c.arr.lc, p.2.tbad = false ∧ p.2.dbad = false) → c.arr.nruBad = [] →
    sfView c h u.req.line = .excl v a → a < 64 → sharerIdx u.req.rid ≠ some a → (cpGet c (a / 4)).closed = false →
    Completes (.bourdonSlotGrant h k) s (fun t => t = { s with core := t.core } ∧
      ∃ y, trkGet t.core h k = some y ∧ y.slot = true ∧ y.passed = true ∧ y.req = u.req ∧
        y.snoops.map (fun z => (z.who, z.msg)) = [(a, .snpShared)])) ∧
  (∀ (s : State) (c : Core) (h : Fin 32) (e : Fin 12) (m : Mon), s.core = c → On s →
    mfind? c.arr.mon (h.val * 12 + e.val) = some m → m.expiry < now c →
    CoreTo (.reservationExpiry h e) s { c with arr := { c.arr with mon := mdel c.arr.mon (h.val * 12 + e.val) } })


/-! ### The back-end side (R181, R264 to R287). -/

/-- Background bundling places a dirty, mirrored line that no bundle carries into a bundle of its region and B-port, and queues it there.
A grant of an idle B-port to a waiting read sends its BE_READ under a free TAG with its requester and the line's local address; one to a
waiting bundle of one line sends its BE_WRITE with the line, encrypted by the key of its slot. Each flit is charged. -/
def Obligations.BundlesAndReadsLeave : Prop :=
  (∀ (s : State) (c : Core) (h : Fin 32) (line ph cs w b r : Nat) (l : Loc), s.core = c →
    (c.st.cur = .ready ∨ c.st.cur = .degraded ∨ c.st.cur = .quiesced ∨ c.st.cur = .service) → NoFlip c →
    (bundleable c h).contains line = true → dirtyLoc c line = some (ph, cs, w, l) → l.dbad = false → lineType c line = 1 →
    sliceOf c line = h.val → bportOf c line = some b → rgnIndex c line = some r → keyEmpty c line = false →
    let x : Bundle := {
      id := c.nextBundle, port := b, slice := h, cls := 1, urgent := false
      lines := [{ line := line, data := l.data, poison := l.poison }], key := rgnKey (rgnCur c r), meters := [rgnMeter (rgnCur c r)] }
    Completes (.backgroundBundling h [line]) s (fun t => t = { s with core := t.core } ∧
      t.core = { c with arr := { c.arr with lc := t.core.arr.lc }, bundles := c.bundles ++ [x], nextBundle := c.nextBundle + 1
                        bport := t.core.bport } ∧
      lcRd t.core ph cs w = { l with bundle := some c.nextBundle } ∧
      bpGet t.core b = { bpGet c b with queue := (bpGet c b).queue ++
        [{ rq := 4 * h + 1, isRead := false, id := c.nextBundle, t0 := now c }] })) ∧
  (∀ (s : State) (c : Core) (b : Fin 16) (n tag : Nat) (m : BMsg), s.core = c → On s → NoFlip c → (bpGet c b).closed = false →
    c.st.cur ≠ .halt → (bpGet c b).ready = true → (bpGet c b).cur = none → (bpGet c b).queue = [m] →
    0 < credit (bpGet c b).credits (msgClass m) → bFreeTag c b m.isRead = some tag → mfind? c.keyNext (msgSlot c m) = none →
    slotKey c (msgSlot c m) ≠ .empty →
    (∀ (r : Read) (u : Trk), m.isRead = true → c.reads.find? (fun x => x.sn == m.id) = some r → trkGet c r.slice r.trk = some u → u.req.rid < 96 →
      Completes (.transferGrant b n) s (fun t => t = { s with core := t.core } ∧
        t.core = { c with bport := t.core.bport, arb := t.core.arb, hist := t.core.hist, reads := t.core.reads, wire := t.core.wire } ∧
        t.core.wire = c.wire ++ [.flit (epB b) {
          msg := .beRead, tag := tag, rid := if r.pref then 77 else u.req.rid, line := localOf r.line, be := beAll }] ∧
        (bpGet t.core b).queue = [] ∧
        mget (bpGet t.core b).ctrs m.rq 0 = max (mget (bpGet c b).ctrs m.rq 0 - 1) (-32768) ∧
        t.core.reads = c.reads.map (fun x => if x.sn = r.sn then { x with
          tag := tag, st := .out, sentAt := now c, key := msgSlot c m
          bound := if (bpGet c b).boundValid then some (bpGet c b).bound.toNat else none } else x))) ∧
    (∀ (x : Bundle) (y : BLine), m.isRead = false → bunGet c m.id = some x → x.lines = [y] → x.st = .formed → x.tag = none → x.sentFlits = 0 → x.trk = none →
      inOrder c m = true → 0 < n →
      Completes (.transferGrant b n) s (fun t => t = { s with core := t.core } ∧
        t.core = { c with bport := t.core.bport, arb := t.core.arb, hist := t.core.hist, bundles := t.core.bundles, wire := t.core.wire } ∧
        t.core.wire = c.wire ++ [.flit (epB b) {
          msg := .beWrite, tag := tag, poison := y.poison, line := localOf y.line, dv := true, be := beAll
          data := match slotKey c x.key with
            | .key k => Config.xtsEncrypt k (localOf y.line * 64) y.data
            | _ => y.data }] ∧
        (bpGet t.core b).queue = [] ∧ (bpGet t.core b).cur = none ∧
        mget (bpGet t.core b).ctrs m.rq 0 = max (mget (bpGet c b).ctrs m.rq 0 - 1) (-32768) ∧
        bunGet t.core x.id = some { x with tag := some tag, sentFlits := 1, st := .sent, t0 := now c })))

/-- Once a credit window of 2^WIN ticks has run, every transfer-arbiter counter of the B-port and every bank-arbiter counter of its slices
becomes min(counter, 0) + WEIGHT, and the next window begins; before that nothing changes. A bank arbiter grants the bank to the waiting
pipeline if it lost the last ranking, else to the requester with the fullest counter, the lowest of equal ones: its grant is counted, with its
wait, its counter is charged the accesses of the grant, and the others have lost a ranking. An urgent scrub of Fettler goes first
unless the pipeline waits behind an emergency. -/
def Obligations.ArbitersCharge : Prop :=
  (∀ (s : State) (c : Core) (b : Fin 16), s.core = c → On s →
    (windowOver c b = true → Completes (.creditWindow b) s (fun t => t = { s with core := t.core } ∧
      t.core = { c with bport := t.core.bport, arb := t.core.arb } ∧
      (∀ rq < 132, mget (bpGet t.core b).ctrs rq 0 = min (mget (bpGet c b).ctrs rq 0) 0 + (weightOf c b rq : Int)) ∧
      { bpGet t.core b with ctrs := (bpGet c b).ctrs } = { bpGet c b with winAt := (bpGet c b).winAt + windowLen c b } ∧
      (∀ n, n ≠ b.val → bpGet t.core n = bpGet c n) ∧
      (∀ sl r, r < 6 → (sl < 32 ∧ sl / 2 = b.val ∨ sl = 32 ∧ b.val = 15) → mget t.core.arb (bankKey sl r) {} =
        { mget c.arb (bankKey sl r) {} with
          credit := min (mget c.arb (bankKey sl r) {}).credit 0 + (weightOf c (16 + sl) r : Int) }) ∧
      (∀ n, (∀ sl r, r < 6 → (sl < 32 ∧ sl / 2 = b.val ∨ sl = 32 ∧ b.val = 15) → n ≠ bankKey sl r) →
        mget t.core.arb n {} = mget c.arb n {}))) ∧
    (windowOver c b = false → CoreTo (.creditWindow b) s c)) ∧
  (∀ (s : State) (c : Core) (h : Fin 33) (k : Fin 8) (l : List (Fin 6)) (w : Fin 6) (u : Option (Fin 6)), s.core = c → On s →
    l.Nodup → w ∈ l → (s.sag.debugOpen ≠ 0 ∨ 5 ∉ l) → (bankGet c h k).resume = none →
    (u = none ∨ (bankGet c h k).urgent = true ∧ 0 ∈ l) →
    (if (bankGet c h k).lost = true ∧ 0 ∈ l then w = 0 else ∀ n ∈ l, n ≠ w →
      (mget c.arb (bankKey h n) {}).credit < (mget c.arb (bankKey h w) {}).credit ∨
      (mget c.arb (bankKey h n) {}).credit = (mget c.arb (bankKey h w) {}).credit ∧ w < n) →
    Completes (.bankArbitration h k l { who := u }) s (fun t => t = { s with core := t.core } ∧
      t.core = { c with arb := t.core.arb, bankSt := t.core.bankSt } ∧
      (let a := mget c.arb (bankKey h w) {}
       mget t.core.arb (bankKey h w) {} = { a with
         grants := (a.grants + 1) % 2 ^ 48, credit := max (a.credit - (bankCost false w : Int)) (-32768)
         maxWait := max a.maxWait (min (now c - mget (bankGet c h k).since w (now c)) (2 ^ 32 - 1)) }) ∧
      (∀ n ∈ l, n ≠ w → mget t.core.arb (bankKey h n) {} =
        { mget c.arb (bankKey h n) {} with waits := ((mget c.arb (bankKey h n) {}).waits + 1) % 2 ^ 48 }) ∧
      (∀ n, (∀ y ∈ l, n ≠ bankKey h y) → mget t.core.arb n {} = mget c.arb n {}) ∧
      (bankGet t.core h k).last = some w.val ∧ (bankGet t.core h k).lost = (w != 0 && l.contains 0) ∧
      (∀ n, n ≠ h.val * 8 + k.val → mget t.core.bankSt n {} = mget c.bankSt n {}))) ∧
   (∀ (s : State) (c : Core) (h : Fin 33) (k : Fin 8) (l : List (Fin 6)) (mid : Bool), s.core = c → On s → 3 ∈ l →
     ((bankGet c h k).urgent = false ∨ 0 ∉ l) →
     Completes (.bankArbitration h k l { who := some 3, mid := mid }) s (fun t => t = { s with core := t.core } ∧
       t.core = { c with arb := t.core.arb, bankSt := t.core.bankSt } ∧
       (mget t.core.arb (bankKey h 3) {}).grants = ((mget c.arb (bankKey h 3) {}).grants + 1) % 2 ^ 48 ∧
       (mget t.core.arb (bankKey h 3) {}).credit = max ((mget c.arb (bankKey h 3) {}).credit - 4) (-32768) ∧
       (bankGet t.core h k).urgent = true ∧ (bankGet t.core h k).last = some 3 ∧
       (bankGet t.core h k).resume = (if mid then (bankGet c h k).last else (bankGet c h k).resume)))


/-- BE_DATA brings its line to the tracker that waits for the fill and writes it Clean into the way that was kept for it. BE_DURABLE with
STAT = OK makes the bundle's line Clean, releases its mirror, meters its bytes and ends the bundle. The entry's credit goes back. -/
def Obligations.BackEndAnswers : Prop :=
  (∀ (s : State) (c : Core) (b : Fin 16) (f : Flit) (r : Read) (u : Trk) (w : Nat) (st : Stat), s.core = c → On s → BackTakes c b f →
     fMsg f = some .beData → codeStat (fStat f) = some st → st.isErr = false →
     c.reads.find? (fun r => r.port == b.val && r.st == .out && r.tag == fTag f && localOf r.line == fLine f) = some r →
     (c.reads.map (fun x => x.sn)).Nodup → r.bound = none → c.keyNext = [] → trkGet c r.slice r.trk = some u → u.fill = .out r.sn →
     u.data = none → u.refetch = false → u.st = .gather → u.passed = true → gathering u = true → u.fwd = none → u.newEnt = none →
     Calm c → r.way = some w → c.arr.nruBad = [] → c.lcStop = false → lcUsable c r.phys (lcSet r.line) w = true → fPoison f = false →
     lcFind c r.slice r.line = none →
     Completes (.beData b f) s (fun t => t = { s with core := t.core } ∧
       t.core = freed { c with arr := t.core.arr, reads := t.core.reads, bport := t.core.bport } b f ∧
       t.core.reads = c.reads.filter (fun x => x.sn != r.sn) ∧
       trkGet t.core r.slice r.trk = some { u with
         fill := .none, data := some (decryptBy (slotKey c r.key) r.line f.pay), poison := st == .okPoison } ∧
       lcRd t.core r.phys (lcSet r.line) w = {
         use := .clean, line := r.line, poison := st == .okPoison, pf := r.pref, data := decryptBy (slotKey c r.key) r.line f.pay })) ∧
  (∀ (s : State) (c : Core) (b : Fin 16) (f : Flit) (x : Bundle) (y : BLine) (ph cs w m : Nat) (l : Loc), s.core = c → On s →
     c.st.cur ≠ .flush → BackTakes c b f → fMsg f = some .beDurable → fStat f = 0 →
     bundleOf c b (fTag f) = some x → x.lines = [y] → x.meters = [m] → dirtyLoc c y.line = some (ph, cs, w, l) →
     l.bundle = some x.id → c.lcStop = false → lineType c y.line = 1 → w < wareFrom c → c.arr.trk = [] →
     Restful c → c.keyNext = [] → c.pug = [] →
     Completes (.beDurable b f) s (fun t =>
       t = { s with core := t.core, sag := { s.sag with durSince := mmod s.sag.durSince (b.val * 17 + m) 0 (· + 64) } } ∧
       t.core = freed { c with
         arr := { c.arr with lc := t.core.arr.lc }, bundles := t.core.bundles, fab := t.core.fab, pug := t.core.pug
         bport := t.core.bport } b f ∧
       (∀ n, bpGet t.core n = bpGet c n) ∧
       lcRd t.core ph cs w = { l with use := .clean, bundle := none, pin := false, mirrored := false, age := 0 } ∧
       t.core.bundles = c.bundles.filter (fun z => z.id != x.id) ∧
       t.core.fab = { c.fab with mirRel := c.fab.mirRel ++ [(x.slice, y.line)]
                                 meters := c.fab.meters ++ [{ meter := m, q := 0, amount := 64 }] }))


/-- BE_STATUS SCANNING, READY and BOUND, and BE_HEALTH, change what the B-port's registers show. BE_STATUS EXHAUSTED pins the bundle's
line, sets the write-refused flag of its region and ends the bundle; EXHAUSTED shows in BP_STAT, is counted, and its alarm is latched. -/
def Obligations.BackEndStatus : Prop :=
  (∀ (s : State) (c : Core) (b : Fin 16) (f : Flit), s.core = c → On s → BackTakes c b f → fMsg f = some .beStatus → statBad f = false →
     (fCode f = 2 → (bpGet c b).ready = false → CoreTo (.scanning b f) s
       (freed (bpMod c b (fun y => { y with scan := BitVec.ofNat 16 (fValue f), scanning := true })) b f)) ∧
     (fCode f = 3 → c.st.cur ≠ .waitBackend →
       (∀ r ∈ c.reads, r.port = b.val → r.st ≠ .held ∧ (r.st = .queued → bportOf c r.line = some b.val)) → Calm c →
       CoreTo (.ready b f) s (freed (bpMod c b (fun y => { y with scanning := false, ready := true, reported := true })) b f)) ∧
     (fCode f = 4 → CoreTo (.bound b f) s
       (freed (bpMod c b (fun y => { y with boundValid := true, bound := wd (fValue f) })) b f))) ∧
   (∀ (s : State) (c : Core) (b : Fin 16) (f : Flit), s.core = c → On s → BackTakes c b f → statBad f = false →
     fMsg f = some .beHealth → healthOk f.pay = true →
     Completes (.beHealth b f) s (fun t => t = { s with core := t.core, sag := t.sag } ∧
       bpGet t.core b = { bpGet c b with hlth := (List.range 16).map (payWord f.pay) } ∧
       flagv t.core (bellBase (routedBank c 26)) 26 = true ∧ t.core.arr = c.arr ∧ t.core.fab = c.fab ∧ t.core.bundles = c.bundles ∧
       (s.ctl.up = true → s.ctl.down.contains 0 = false → payNum f.pay 6 7 < c.pol.health.getD b 0 → flagv t.core 0x20100 6 = true) ∧
       (s.sag.lpRun = false → t.sag = s.sag) ∧
       t.core.wire = c.wire ++ [.credit (epB b) (fClass f) 1])) ∧
  (∀ (s : State) (c : Core) (b : Fin 16) (f : Flit) (x : Bundle) (y : BLine) (ph cs w r : Nat) (l : Loc), s.core = c → On s →
     BackTakes c b f → statBad f = false → fMsg f = some .beStatus → fCode f = 1 →
     bundleOf c b (fTag f) = some x → x.lines = [y] → dirtyLoc c y.line = some (ph, cs, w, l) → l.bundle = some x.id →
     rgnIndex c y.line = some r → c.arr.trk = [] → Restful c → c.keyNext = [] → c.pug = [] →
     Completes (.exhausted b f) s (fun t => t = { s with core := t.core } ∧
       t.core.arr = { c.arr with lc := t.core.arr.lc } ∧ lcRd t.core ph cs w = { l with pin := true, bundle := none } ∧
       wrefOf t.core y.line = true ∧ t.core.bundles = c.bundles.filter (fun z => z.id != x.id) ∧
       flagv t.core (0x50004 + 0x100 * b) 3 = true ∧ flagv t.core 0x20100 5 = true ∧
       ctrv t.core (0x5001C + 0x100 * b) = (ctrv c (0x5001C + 0x100 * b) + 1) % 2 ^ 32 ∧
       t.core.wire = c.wire ++ [.credit (epB b) (fClass f) 1]))

/-! ### The span: gateways, links, sessions (R162 to R169, R292 to R312). -/

/-- A remote snoop of a line that the proxy does not list is answered at once with GST = I; one of a line that it lists for one agent is
passed to that agent, whose answer the gateway awaits. -/
def Obligations.RemoteSnoops : Prop :=
  ∀ (s : State) (c : Core) (k : Fin 4) (m : SpanMsg), s.core = c → On s → portsUp c = true → NoFlip c →
    rxFind c k (fun m => m.flits.any (fun f => msgCls f.msg == 1)) = some m → pfCheck c (rxFlit m).line = c →
    pfBank (rxFlit m).line = k.val → (gwGet c k).snoops = [] → (gwGet c k).lineq = [] → (gwGet c k).nruBad = [] →
    (gwGet c k).unfiltered.contains (pfSet (rxFlit m).line) = false →
    (pfFind c (rxFlit m).line = none →
      Completes (.remoteSnoop k) s (fun t => t = { s with core := t.core } ∧ t.core.arr = c.arr ∧ t.core.fab = c.fab ∧
        (gwGet t.core k).rx = (gwGet c k).rx.erase m ∧
        (∃ e, (gwGet t.core k).tx = (gwGet c k).tx ++ [{
          src := c.dom.inst, dst := m.src, gw := k, eseq := e, msg := .snpResp, t0 := now c
          flits := [{ msg := .snpResp, tag := (rxFlit m).tag, rid := 80 + c.dom.inst, line := (rxFlit m).line }] }]))) ∧
    (∀ w a, pfFind c (rxFlit m).line = some w → pAgents (pfRd c k (pfSet (rxFlit m).line) w).bits = [a] → a < 64 →
      (cpGet c (a / 4)).closed = false →
      Completes (.remoteSnoop k) s (fun t => t = { s with core := t.core } ∧ t.core.arr = c.arr ∧ t.core.fab = c.fab ∧
        (gwGet t.core k).rx = (gwGet c k).rx.erase m ∧ (gwGet t.core k).snoops.map (fun x => (x.line, x.home, x.waits)) =
          [((rxFlit m).line, m.src, [a])] ∧
        (cpGet t.core (a / 4)).snoops = (cpGet c (a / 4)).snoops ++
          [{ agent := a, line := (rxFlit m).line, phys := 1000 + k, trk := (rxFlit m).tag }]))

/-- The head of a gateway's line queue whose proxy entry asks for no conditioning leaves for its remote home under a gateway tag, a
CLEAN_UNIQUE of an agent that the proxy does not list as RD_UNIQUE. The remote home's completion without a grant is mapped back to
the local requester's own request; it frees the gateway tag, or keeps it for the ACK. -/
def Obligations.GatewayRequests : Prop :=
  (∀ (s : State) (c : Core) (k : Fin 4) (r : Req) (tg : Nat), s.core = c → On s → NoFlip c → gwHead (gwGet c k) = some r →
    r.op.isWb = false → pfCheck c r.line = c → (gwGet c k).snoops = [] → pfFind c r.line = none → c.ending = false → gwFreeTag (gwGet c k) k false = some tg →
    let r' := if r.op = .cleanUnique then { r with op := .rdUnique } else r
    Completes (.gatewayRequest k) s (fun t => t = { s with core := t.core } ∧ t.core.arr = c.arr ∧ t.core.fab = c.fab ∧
      (gwGet t.core k).lineq = (gwGet c k).lineq.erase r ∧
      (gwGet t.core k).tags = (gwGet c k).tags ++ [{ tag := tg, req := r', dst := instOf r.line, t0 := now c }] ∧
      (∃ e, (gwGet t.core k).tx = (gwGet c k).tx ++ [{
        src := c.dom.inst, dst := instOf r.line, gw := k, eseq := e, msg := opMsg r'.op, t0 := now c
        flits := [{ msg := opMsg r'.op, tag := tg, rid := 80 + c.dom.inst, poison := r.poison, line := r.line
                    dv := msgData (opMsg r'.op), be := r.be, data := if msgData (opMsg r'.op) then r.data else 0 }] }]))) ∧
  (∀ (s : State) (c : Core) (k : Fin 4) (m : SpanMsg) (g : GwTag), s.core = c → On s →
    rxFind c k (fun m => (m.msg == .cmp || m.msg == .cmpData) && (rxFlit m).rid == ownRid c && true) = some m →
    (gwGet c k).tags.find? (fun t => t.tag == (rxFlit m).tag) = some g → g.expired = false → (rxFlit m).gst = .i →
    g.req.src ≠ gwOwn → (gwGet c k).lineq = [] → (gwGet c k).snoops = [] →
    Completes (.remoteCompletion k) s (fun t => t = { s with core := t.core } ∧
      t.core = { c with gw := t.core.gw, fab := t.core.fab } ∧
      (gwGet t.core k).rx = (gwGet c k).rx.erase m ∧
      (gwGet t.core k).tags = (if (rxFlit m).ackreq then (gwGet c k).tags.map (fun y =>
        if y = g then { y with sent := true, ackWait := true } else y) else (gwGet c k).tags.erase g) ∧
      t.core.fab = { c.fab with cmps := c.fab.cmps ++ [{
        dst := g.req.src, tag := g.req.tag, data := if m.msg = .cmpData then some (rxFlit m).data else none, stat := (rxFlit m).stat
        poison := (rxFlit m).poison, gst := .i, res := (rxFlit m).res, ackreq := (rxFlit m).ackreq, line := g.req.line
        phys := 1000 + k, trk := g.tag }] }))

/-- A good frame on a live link. IDLE brings its acknowledgment and credit; CREDIT adds the six counts of its first payload bytes; NAK has
every unacknowledged frame sent again, oldest first. A link is lost when Sn_LINK_UP falls, or when a trained link has brought no good frame
for 1,000 ticks; it is out of use until Sn_LINK_UP rises again, and nothing of its exchange, its replay buffer or its credits is left. -/
def Obligations.LinkFrames : Prop :=
  (∀ (s : State) (c : Core) (n : Fin 4) (fr : Frame), s.core = c → On s → portsUp c = true → (spGet c n).resetIn = false →
     (spGet c n).stopped = false → (spGet c n).linkUp = true → (spGet c n).trained = true → frameOk fr = true →
     (spGet c n).outq = [] → lfld fr 28 28 = 0 → c.st.cur ≠ .halt →
     (lfld fr 3 0 = 0 → CoreTo (.idle n fr) s (spMod c n (fun x => { x with
       lastGood := now c
       credits := if lfld fr 32 32 = 1 then earn x.credits (lfld fr 31 29) 1 else x.credits }))) ∧
     (lfld fr 3 0 = 3 → lfld fr 32 32 = 0 → CoreTo (.credit n fr) s (spMod c n (fun x => { x with
       lastGood := now c
       credits := (List.range 6).foldl (fun l k => earn l k (payByte fr.flit k).toNat) x.credits }))) ∧
     (lfld fr 3 0 = 2 → lfld fr 32 32 = 0 → (spGet c n).replay ≠ [] → (spGet c n).resends < 8 →
       Completes (.nak n fr) s (fun t => t = { s with core := t.core } ∧
         t.core = { c with sport := t.core.sport, wire := t.core.wire, ctr := t.core.ctr } ∧
         t.core.wire = c.wire ++ (spGet c n).replay.map (fun x => .frame n (refresh (fackOf (spGet c n)) x.2)) ∧
         (spGet t.core n).resends = (spGet c n).resends + 1 ∧ (spGet t.core n).replay = (spGet c n).replay))) ∧
  (∀ (s : State) (c : Core) (n : Fin 4) (silent : Bool), s.core = c → On s → (spGet c n).linkUp = true →
     (silent = true → (spGet c n).trained = true ∧ (spGet c n).lastGood + 1000 ≤ now c) →
     Completes (.linkLost { n := n, silent := silent }) s (fun t => t = { s with core := t.core } ∧ (spGet t.core n).linkUp = false ∧ (spGet t.core n).up = false ∧
       flagv t.core (spPage n) 1 = true ∧ (spGet t.core n).trained = false ∧ (spGet t.core n).replay = [] ∧ (spGet t.core n).credits = [0, 0, 0, 0, 0, 0] ∧
       t.core.arr = c.arr ∧ t.core.fab = c.fab))

/-- A FLIT frame in sequence that carries a whole message of a session for this instance, the next by its ESEQ, delivers it to its
gateway and moves the link and the session on by one; the first frame out of sequence is answered with NAK and nothing of it is
taken. -/
def Obligations.FlitsInSequence : Prop :=
  ∀ (s : State) (c : Core) (n : Fin 4) (fr : Frame) (x : OutFlit), s.core = c → On s → portsUp c = true → (spGet c n).resetIn = false →
    (spGet c n).stopped = false → (spGet c n).linkUp = true → (spGet c n).trained = true → frameOk fr = true → lfld fr 3 0 = 1 →
    (spGet c n).outq = [] → lfld fr 28 28 = 0 → lfld fr 32 32 = 0 → c.st.cur ≠ .halt →
    (lfld fr 15 4 = (spGet c n).expect → fate [0, 1, 2, 3, 4, 5] fr.flit = .good → c.reqStop = false → c.st.cur = .ready →
      lfld fr 40 37 = c.dom.inst → decFlit fr.flit = some x → (spGet c n).conflict = false → msgCls x.msg ≠ 5 →
      (msgCls x.msg = 0 ∨ x.msg ∉ [.beWrite, .beAbort, .beDurable, .beStatus, .beData, .beHealth]) → x.seq = 0 → x.last = true →
      lfld fr 58 43 = mget (gwGet c (lfld fr 42 41)).rxSeq (16 * lfld fr 36 33 + msgCls x.msg) 0 →
      Completes (.flit n fr) s (fun t => t = { s with core := t.core } ∧
        t.core = { c with sport := t.core.sport, wire := t.core.wire, gw := t.core.gw } ∧
        (spGet t.core n).expect = ((spGet c n).expect + 1) % 4096 ∧
        (gwGet t.core (lfld fr 42 41)).rx = (gwGet c (lfld fr 42 41)).rx ++ [{
          src := lfld fr 36 33, dst := lfld fr 40 37, gw := lfld fr 42 41, eseq := lfld fr 58 43, msg := x.msg, flits := [x]
          t0 := now c }] ∧
        mget (gwGet t.core (lfld fr 42 41)).rxSeq (16 * lfld fr 36 33 + msgCls x.msg) 0 = (lfld fr 58 43 + 1) % 65536)) ∧
    (lfld fr 15 4 ≠ (spGet c n).expect → (spGet c n).naked = false →
      Completes (.flit n fr) s (fun t => t = { s with core := t.core } ∧
        t.core = { c with sport := t.core.sport, wire := t.core.wire } ∧ (spGet t.core n).expect = (spGet c n).expect ∧
        (spGet t.core n).naked = true ∧
        t.core.wire = c.wire ++ [.frame n (mkFrame noFlit (mkLink 2 0 (fackOf (spGet c n)) 1 0 0 0 0 0 0))]))

/-- The exchange of R304: Sn_LINK_UP rising lets the side announce itself, a TRAIN of STEP 0 is answered with STEP 1, the side announces
again every 100 ticks until a TRAIN arrives, and a TRAIN of STEP 1 at a side that has answered ends the exchange. HELLO of another
instance names the neighbour of its link; HELLO under this instance's own ID takes the link out of use and latches the domain alarm. ROUTE
gives the neighbour's 16 hop counts. When their periods have passed, HELLO goes out on every trained link and ROUTE to every neighbour,
each under the next PSEQ. -/
def Obligations.LinksComeUp : Prop :=
  (∀ (s : State) (c : Core) (n : Fin 4), s.core = c → On s → portsUp c = true → (spGet c n).resetIn = false →
     (spGet c n).stopped = false →
     ((spGet c n).linkUp = false → Completes (.linkUp n) s (fun t => t = { s with core := t.core } ∧
       t.core = { c with sport := t.core.sport, wire := c.wire ++ [.frame n (trainFrame c n 0)] } ∧
       (spGet t.core n).linkUp = true ∧ (spGet t.core n).lastTrain = now c)) ∧
     ((spGet c n).linkUp = true → (spGet c n).gotTrain = false → (spGet c n).lastTrain + 100 ≤ now c →
       Completes (.trainAnnounce n) s (fun t => t = { s with core := t.core } ∧
         t.core = { c with sport := t.core.sport, wire := c.wire ++ [.frame n (trainFrame c n 0)] } ∧
         (spGet t.core n).lastTrain = now c)) ∧
     (∀ fr, (spGet c n).linkUp = true → c.st.cur ≠ .halt → frameOk fr = true → lfld fr 3 0 = 4 →
       (payByte fr.flit 0 = 0 → (spGet c n).gotStep1 = false → Completes (.train n fr) s (fun t => t = { s with core := t.core } ∧
         t.core = { c with sport := t.core.sport, wire := c.wire ++ [.frame n (trainFrame c n 1)] } ∧
         (spGet t.core n).sentStep1 = true ∧ (spGet t.core n).gotTrain = true ∧
         (spGet t.core n).neighbour = (payByte fr.flit 1).toNat % 16)) ∧
       (payByte fr.flit 0 = 1 → (spGet c n).sentStep1 = true → (spGet c n).trained = false →
         Completes (.train n fr) s (fun t => t = { s with core := t.core } ∧
           (spGet t.core n).trained = true ∧ (spGet t.core n).up = true ∧
           ∃ l, t.core.wire = c.wire ++ [.frame n (creditFrame
             (spMod c n (fun y => { y with expect := 0 })) n)] ++ l)))) ∧
  (∀ (s : State) (c : Core) (n : Fin 4) (m : SpanMsg), s.core = c → On s →
     (spGet c n).mgt.find? (fun m => mgtType m == 1) = some m →
     (mgtNum m 8 1 % 16 ≠ c.dom.inst → c.dom.strap = false → Completes (.hello n) s (fun t => t = { s with core := t.core } ∧
       (spGet t.core n).neighbour = mgtNum m 8 1 % 16 ∧ (spGet t.core n).nbValid = true ∧ (spGet t.core n).conflict = false ∧
       (spGet t.core n).mgt = (spGet c n).mgt.erase m ∧ t.core.arr = c.arr)) ∧
     (mgtNum m 8 1 % 16 = c.dom.inst → Completes (.hello n) s (fun t => t = { s with core := t.core } ∧
       (spGet t.core n).conflict = true ∧ flagv t.core 0x20100 7 = true ∧ t.core.arr = c.arr))) ∧
   (∀ (s : State) (c : Core) (n : Fin 4) (m : SpanMsg), s.core = c → On s →
     (spGet c n).mgt.find? (fun m => mgtType m == 2) = some m →
     Completes (.route n) s (fun t => t = { s with core := t.core } ∧
       (spGet t.core n).hops = (List.range 16).map (fun i => mgtNum m (8 + i) 1) ∧
       (spGet t.core n).mgt = (spGet c n).mgt.erase m ∧ t.core.arr = c.arr)) ∧
   (∀ (s : State) (c : Core), s.core = c → On s → c.dom.pseq < 2 ^ 32 →
     (c.dom.helloAt + 2 ^ 16 ≤ now c → Completes .helloPeriod s (fun t => t = { s with core := t.core } ∧
       t.core = { c with sport := t.core.sport, wire := t.core.wire, dom := { c.dom with
         helloAt := now c
         pseq := (c.dom.pseq + ((List.range 4).filter (fun n => (spGet c n).trained)).length) % 2 ^ 32 } })) ∧
     (c.dom.routeAt + 2 ^ 14 ≤ now c → Completes .routePeriod s (fun t => t = { s with core := t.core } ∧
       t.core = { c with sport := t.core.sport, wire := t.core.wire, dom := { c.dom with
         routeAt := now c
         pseq := (c.dom.pseq + ((List.range 4).filter (fun n => (spGet c n).up && !(spGet c n).conflict)).length) % 2 ^ 32 } })))


/-- A gateway that has owed an instance acknowledgments for 16 messages or 50 ticks, and has a route to it, owes it none afterwards; a
SPAN_ACK of one entry frees the messages that it covers from the end-to-end buffer, and only those; a message without SPAN_ACK for
REISSUE_WAIT takes its route out of use for the destination and is sent afresh. -/
def Obligations.SessionsAcknowledge : Prop :=
  (∀ (s : State) (c : Core) (k : Fin 4) (i : Fin 16), s.core = c → On s → (activeRoute c i).isSome = true →
    ((gwGet c k).ackDue.any (fun x => x.1 / 16 == i.val && (decide (16 ≤ x.2.1) || decide (x.2.2 + 50 ≤ now c)))) = true →
    Completes (.spanAckDue k i) s (fun t => t = { s with core := t.core } ∧
      t.core = { c with gw := t.core.gw, sport := t.core.sport, wire := t.core.wire, dom := { c.dom with pseq := (c.dom.pseq + 1) % 2 ^ 32 } } ∧
      (gwGet t.core k).ackDue = (gwGet c k).ackDue.filter (fun x => x.1 / 16 != i.val))) ∧
  (∀ (s : State) (c : Core) (n k : Fin 4) (m : SpanMsg), s.core = c → On s →
    (spGet c n).mgt.find? (fun m => mgtType m == 3) = some m → mgtNum m 8 1 = 1 → mgtNum m 12 1 % 4 = k →
    txIn (gwGet c k).tx = (gwGet c k).tx →
    Completes (.spanAck n) s (fun t => t = { s with core := t.core } ∧
      (gwGet t.core k).tx = (gwGet c k).tx.filter (fun y => !(y.dst == m.src && msgCls y.msg == mgtNum m 12 1 / 4 % 8 &&
        decide ((mgtNum m 14 2 + 65536 - y.eseq) % 65536 < 1024))) ∧
      (∀ j, j ≠ k.val → gwGet t.core j = gwGet c j) ∧ t.core.arr = c.arr ∧ t.core.fab = c.fab)) ∧
  (∀ (s : State) (c : Core) (k : Fin 4) (i : Fin 16) (n : Nat), s.core = c → On s → activeRoute c i = some n →
    ((txIn (gwGet c k).tx).any (fun m => m.dst == i.val && decide (m.t0 + reissueWait c ≤ now c))) = true →
    Completes (.reissue k i) s (fun t => t = { s with core := t.core } ∧
      t.core.dom.deadRoutes = (16 * i.val + n) :: c.dom.deadRoutes ∧
      (gwGet t.core k).tx = (gwGet c k).tx.map (fun m => if m.dst = i.val then { m with t0 := now c } else m) ∧
      t.core.arr = c.arr ∧ t.core.fab = c.fab))


/-! ### Port resets (R72 to R76). -/

/-- An asserted reset closes an idle C-port: nothing of its boundary or its credits is left and its purge begins. It closes a D-port with
an empty buffer and releases the locks that the port's requester holds. Deasserted, it opens a C-port whose purge has ended, a D-port whose
buffer has drained and a B-port, with their first inbound credits (R64), but none that a header error has stopped. The purge of a C-port none of whose agents any filter entry lists ends with no line poisoned; the port
then opens unless its reset is still asserted or it is stopped. -/
def Obligations.PortResets : Prop :=
  (∀ (s : State) (c : Core) (p : Fin 16), s.core = c → On s → (cpGet c p).closed = false → (cpGet c p).tags = [] →
     (cpGet c p).snoops = [] → (cpGet c p).inq = [] → (∀ t ∈ c.arr.trk, ∀ a ∈ t.awaitWb, portOfAgent a.1 ≠ p.val) → Calm c →
     CoreTo (.portReset (.c p)) s { cpMod c p (fun y => { y with
       resetIn := true, stopped := false, closed := true, purging := true, credits := [0, 0, 0, 0, 0, 0], inCrd := [0, 0, 0, 0, 0, 0]
       owed := 0, outq := [], wbOut := [] }) with
       trill := mdel c.trill (epC p) }) ∧
   (∀ (s : State) (c : Core) (n : Fin 8), s.core = c → On s → (dpGet c n).closed = false → (dpGet c n).psb = [] →
     (dpGet c n).tags = [] → (dpGet c n).early = [] →
     Completes (.portReset (.d n)) s (fun t => t = { s with core := t.core, ctl := { s.ctl with lig := t.ctl.lig } } ∧
       t.core = { c with dport := t.core.dport, trill := mdel c.trill (epD n), arr := { c.arr with mon := t.core.arr.mon } } ∧
       (dpGet t.core n).closed = true ∧ (dpGet t.core n).fifo = [] ∧ (dpGet t.core n).loads = [] ∧ (dpGet t.core n).outq = [] ∧
       (dpGet t.core n).dlist = [] ∧ (dpGet t.core n).inCrd = [0, 0, 0, 0, 0, 0] ∧ (dpGet t.core n).epoch = none ∧ (∀ x ∈ t.core.arr.mon, x.1 % 12 ≠ n.val) ∧
       (∀ k, (mget t.ctl.lig k {}).owner ≠ 2 + n.val))) ∧
   (∀ (s : State) (c : Core) (p : Fin 16), s.core = c → On s → (cpGet c p).closed = true → (cpGet c p).stopped = false →
     (cpGet c p).purging = false → portsUp c = true →
     let k := if reqHeld c then 0 else 32
     let d := cpMod c p (fun y => { y with resetIn := false, closed := false, inCrd := [k, 0, 32, 32, 32, 0], owed := 32 - k })
     CoreTo (.portResetRelease (.c p)) s { d with wire := c.wire ++ (if reqHeld c then [] else [.credit (epC p) 0 32]) ++
       [.credit (epC p) 2 32, .credit (epC p) 3 32, .credit (epC p) 4 32] }) ∧
   (∀ (s : State) (c : Core) (n : Fin 8), s.core = c → On s → (dpGet c n).closed = true → (dpGet c n).stopped = false → (dpGet c n).psb = [] →
     (dpGet c n).early = [] → (∀ t ∈ (dpGet c n).tags, t.phase ≠ .opened) → portsUp c = true →
     Completes (.portResetRelease (.d n)) s (fun t => t = { s with core := t.core } ∧
       t.core = { c with dport := t.core.dport, arr := { c.arr with mon := t.core.arr.mon }, wire := t.core.wire } ∧
       (dpGet t.core n).closed = false ∧ (dpGet t.core n).resetIn = false ∧ (dpGet t.core n).tags = (dpGet c n).tags ∧
       credit (dpGet t.core n).inCrd 0 + (dpGet t.core n).owed = 32 ∧ (reqHeld c = false → (dpGet t.core n).owed = 0))) ∧
   (∀ (s : State) (c : Core) (b : Fin 16), s.core = c → On s →
     ((bpGet c b).closed = true → (bpGet c b).stopped = false →
       let d := bpMod c b (fun y => { y with resetIn := false, closed := false, inCrd := [0, 0, 32, 32, 0, 4] })
       CoreTo (.portResetRelease (.b b)) s
         { d with wire := c.wire ++ [.credit (epB b) 2 32, .credit (epB b) 3 32, .credit (epB b) 5 4] }) ∧
     ((bpGet c b).stopped = true → CoreTo (.portResetRelease (.b b)) s (bpMod c b (fun y => { y with resetIn := false })))) ∧
  (∀ (s : State) (c : Core) (p : Fin 16), s.core = c → On s → (cpGet c p).purging = true → (cpGet c p).closed = true →
     (cpGet c p).tags = [] → (cpGet c p).inq = [] → (cpGet c p).poisoned = [] → c.arr.sfHome = [] → c.arr.trk = [] → c.arr.setRec = [] →
     Restful c →
     Completes (.portPurgeComplete p) s (fun t => t = { s with core := t.core } ∧ t.core.arr = c.arr ∧ t.core.fab = c.fab ∧
       (cpGet t.core p).purging = false ∧ (cpGet t.core p).closed = ((cpGet c p).resetIn || (cpGet c p).stopped) ∧
       ctrv t.core (0x80004 + 0x1000 * p) % 65536 = 0))


/-! ### Power, start and reset (R242 to R260, R384, R465 to R486). -/

/-- PWR_OK starts a block that is OFF cold: INIT, with every register of the data side at its reset value, packet RAM empty, the straps
as sampled, Saggar as it was but for the relocked debug, and only the record slots of persistence. PWR_OK falling makes it OFF and
leaves Saggar and the record slots as they are. -/
def Obligations.PowerOnAndOff : Prop :=
  (∀ (s : State) (i : Fin 16) (n : Bool), s.core.st.cur = .off → s.pwr.pwrfail = false →
    Completes (.pwrOkAssert i n) s (fun t => t.pending = s.pending ∧ t.core.st = { cur := .init, prev := .off } ∧ t.core.regs = [] ∧
      t.core.flags = [] ∧ t.core.ctr = [] ∧ t.core.rgn = [] ∧ t.core.arr = {} ∧ t.core.tick = 0 ∧ t.pram = [] ∧ t.core.dom.inst = i.val ∧
      t.core.dom.strap = !n ∧ t.core.dom.role = !n ∧ t.core.dom.members = BitVec.ofNat 16 (2 ^ i.val) ∧
      t.sag = { s.sag with debugOpen := 0 } ∧ t.pers = { slot0 := s.pers.slot0, slot1 := s.pers.slot1 } ∧ t.ctl.mbx = [] ∧ t.ctl.lig = [])) ∧
  (∀ s : State, exec .pwrOkDeassert s = .next { s with
    core := { s.core with st := { cur := .off, prev := s.core.st.cur } }, pwr := { s.pwr with pwrfail := false } })

/-- A block that is OFF stays OFF until PWR_OK is taken: no other command changes its state. -/
def Obligations.OffUntilPowerOk : Prop :=
  ∀ (i : Instr) (s t : State), s.core.st.cur = .off → exec i s = .next t → (∀ n b, i ≠ .pwrOkAssert n b) → t.core.st.cur = .off

/-- RESET_N in HALT is taken at once and in READY ends the transactions and waits for the drain. When it takes effect in HALT the block is
in INIT, the registers of warm-reset kind are at their reset values and the others keep theirs, debug is locked, and packet RAM, the
error log and the key slots are as they were. -/
def Obligations.WarmReset : Prop :=
  (∀ s : State, s.core.st.cur = .halt →
    exec .warmReset s = .next { s with pwr := { s.pwr with warmPend := true, resetN := true } }) ∧
  (∀ (s : State) (c : Core), s.core = c → c.st.cur = .halt → s.pwr.warmPend = true → NoFlip c →
    Completes .warmResetEffect s (fun t => t.core.st = { cur := .init, prev := .halt } ∧ t.pwr.warm = true ∧ t.pwr.warmPend = false ∧
      t.pram = s.pram ∧ t.pending = s.pending ∧ t.sag = { s.sag with debugOpen := 0 } ∧ t.core.log = c.log ∧ t.core.keys = c.keys ∧
      (∀ off, (regInfo off).warm = true → mfind? t.core.regs off = none) ∧
      (∀ off, (regInfo off).warm = false → mfind? t.core.regs off = mfind? c.regs off)))

/-- The steps of INIT: calibration ends and its failed units are counted; a processor's authenticated image is loaded into its memory in its
turn; the first failure makes the other slot's image be tried, and the second one ends in HALT with the alarm. -/
def Obligations.InitSteps : Prop :=
  (∀ s : State, s.core.st.cur = .init → s.pwr.calibrated = false → s.pwr.flushAfterCal = false →
    exec (.calibrationDone [] [] []) s = .next { s with pwr := { s.pwr with calibrated := true, resetN := false, calfail := 0 } }) ∧
  (∀ (s : State) (p : Fin 3) (v : Word), s.core.st.cur = .init → s.pwr.calibrated = true → s.pwr.loaded.length = p → p.val < 2 →
    NoFlip s.core →
    (s.pwr.triedOther = false → exec (.imageLoaded p false v) s = .next { s with pwr := { s.pwr with triedOther := true } }) ∧
    (s.pwr.triedOther = true → Completes (.imageLoaded p false v) s (fun t => t.core.st = { cur := .halt, prev := .init } ∧
      flagv t.core 0x20100 14 = true ∧ t.pwr = { s.pwr with triedOther := false } ∧ t.core.arr = s.core.arr)) ∧
    (s.pwr.triedOther = false → Completes (.imageLoaded p true v) s (fun t => t = { s with
        pwr := { s.pwr with loaded := s.pwr.loaded ++ [p.val], slot := t.pwr.slot, fallback := t.pwr.fallback }
        ctl := { s.ctl with
          versions := modAt s.ctl.versions p (fun _ => v), mem := mput s.ctl.mem p { image := some (s.pwr.sel.getLsbD p) } } } ∧
      t.pwr.slot.getLsbD p = s.pwr.sel.getLsbD p ∧ t.pwr.fallback.getLsbD p = false)))

/-- The OPEN record of a start opens the generation and, once it is written, the block enters READY; a write that fails leaves its slot
invalid and is repeated. -/
def Obligations.OpenRecordOpensGeneration : Prop :=
  (∀ (s : State) (r : Record), On s → s.pers.write = some (.enterReady, r) → s.pers.attempt = true → s.pers.commits = [] →
    anyOneCopy s.core = false → NoFlip s.core →
    Completes (.openRecordWritten true) s (fun t => t.core.st = { cur := .ready, prev := s.core.st.cur } ∧ t.pers.genOpen = true ∧
      t.pers.gen = r.gen ∧ t.pers.seq = r.seq ∧ t.pers.write = none ∧
      (if r.seq % 2 = 0 then t.pers.slot0 else t.pers.slot1) = .valid r ∧
      (if r.seq % 2 = 0 then t.pers.slot1 else t.pers.slot0) = (if r.seq % 2 = 0 then s.pers.slot1 else s.pers.slot0) ∧
      t.pram = s.pram ∧ t.sag = s.sag ∧ t.core.arr = s.core.arr)) ∧
  (∀ (s : State) (r : Record), On s → s.pers.write = some (.enterReady, r) → s.pers.attempt = true →
    Completes (.openRecordWritten false) s (fun t => t.pers.failed = true ∧ t.pers.attempt = false ∧ t.pers.write = s.pers.write ∧
      (if r.seq % 2 = 0 then t.pers.slot0 else t.pers.slot1) = .invalid ∧ t.core.st = s.core.st ∧ t.pers.genOpen = s.pers.genOpen)) ∧
  (∀ s : State, On s → s.pers.write.isSome = true → s.pers.failed = true → s.pers.attempt = false →
    exec .recordRetry s = .next { s with pers := { s.pers with attempt := true } })

/-- PWRFAIL_N with no generation open ends in HALT without a flush; with one open and nothing in flight READY goes to FLUSH, which holds
the voltage at code 60 and ends transactions. The loss of TB_CLK acts as PWRFAIL_N under the substituted clock. -/
def Obligations.PowerFailFlushes : Prop :=
  (∀ (s : State) (c : Core), s.core = c → c.st.cur = .ready → s.pers.genOpen = false →
    Completes .pwrfail s (fun t => t.core.st = { cur := .halt, prev := .ready } ∧ t.pwr.pwrfail = true ∧ t.pram = s.pram ∧ t.sag = s.sag ∧
      t.core.arr = c.arr ∧ t.pers.slot0 = s.pers.slot0 ∧ t.pers.slot1 = s.pers.slot1)) ∧
  (∀ (s : State) (c : Core), s.core = c → c.st.cur = .ready → s.pers.genOpen = true → s.ctl.run = [] → s.bisq.migr = none →
    s.bisq.repl = none → s.bisq.walk = [] → c.arr = {} → c.cport = [] → c.dport = [] → c.gw = [] → c.reads = [] → c.bundles = [] →
    c.fab = {} → isLeaving c c.dom.inst = false → NoFlip c →
    Completes .pwrfail s (fun t => t.core.st = { cur := .flush, prev := .ready } ∧ t.pwr.pwrfail = true ∧ t.core.ending = true ∧
      t.core.volt.held60 = true ∧ t.pers.flushCause = 1 ∧ t.pers.flushAt = now c ∧ t.pers.written = 0 ∧ t.pers.closing = false ∧
      t.pram = s.pram ∧ t.sag = s.sag)) ∧
  (∀ s : State, On s → Completes .tbclkLost s (fun t =>
    exec .pwrfail { s with core := hwSet s.core 0x904 0, pwr := { s.pwr with substituted := true } } = .next t))

/-- The end of a flush: when everything of it has ended, or FLUSH_LIMIT has passed, the CLOSE record's write begins; its success closes the
generation and enters HALT. After SPAN_WAIT the remote buffered STOREs are given up and counted. -/
def Obligations.FlushCloses : Prop :=
  (∀ (s : State), s.core.st.cur = .flush → s.pers.closing = false → flushDone s = true →
    Completes .closeRecord s (fun t => t.pers.closing = true ∧ t.pers.attempt = true ∧
      t.pers.write = some (.close, closeRecord s) ∧ t.core.st = s.core.st ∧ t.pram = s.pram)) ∧
  (∀ (s : State), s.core.st.cur = .flush → s.pers.closing = false → s.pers.flushAt + 2 ^ fld (regv s.core 0x600) 4 0 ≤ now s.core →
    Completes .flushLimit s (fun t => t.pers.closing = true ∧ t.pers.attempt = true ∧
      t.pers.write = some (.close, closeRecord s) ∧ t.core.st = s.core.st ∧ t.pram = s.pram)) ∧
  (∀ (s : State) (r : Record), s.core.st.cur = .flush → s.pers.write = some (.close, r) → s.pers.attempt = true → s.ctl.run = [] →
    Completes (.flushEnd true) s (fun t => t.core.st = { cur := .halt, prev := .flush } ∧ t.pers.genOpen = false ∧ t.pers.write = none ∧
      t.pers.closing = false ∧ (if r.seq % 2 = 0 then t.pers.slot0 else t.pers.slot1) = .valid r ∧ t.core.arr = s.core.arr ∧
      t.pram = s.pram)) ∧
  (∀ (s : State) (c : Core), s.core = c → c.st.cur = .flush → s.pers.flushAt + fld (regv c 0x600) 13 5 * 16 ≤ now c →
    Completes .spanWait s (fun t => (∀ d, (dpGet t.core d).psb = (dpGet c d).psb.filter (fun b => isLocal c b.line)) ∧
      (∀ k, (gwGet t.core k).tags = [] ∧ (gwGet t.core k).lineq = []) ∧ s.pers.spanLost ≤ t.pers.spanLost ∧ t.core.arr = c.arr ∧ t.core.st = c.st))

/-! ### Processors and presence (R18, R387, R454, R481). -/

/-- A processor that faults stops with its memory cleared, its locks released and broken, its reservations ended and the alarm latched. Its
authenticated image lets HP or TP run again under the image's version: that of the slot it ran from, or after one failure that of the other
slot, with the alarm of authentication; where both fail it stays stopped. LP restarts from its image after a fault, with its locks released,
and shows it in the next readout. SERVICE_N deasserted ends presence, and takes a block in SERVICE back to QUIESCED. -/
def Obligations.ProcessorFaults : Prop :=
  (∀ (s : State) (p : Fin 3), On s → s.ctl.up = true → s.ctl.down.contains p.val = false →
     Completes (.procFault p) s (fun t => t = { s with core := t.core, ctl := { s.ctl with
         down := s.ctl.down ++ [p.val], lig := t.ctl.lig, mem := mdel s.ctl.mem p, tries := mdel s.ctl.tries p } } ∧
       (∀ k, (mget t.ctl.lig k {}).owner ≠ 10 + p.val) ∧
       (∀ k l, mfind? s.ctl.lig k = some l → l.owner = 10 + p.val →
         mfind? t.ctl.lig k = some { l with owner := 0, broken := true, dead := 10 + p.val }) ∧
       flagv t.core 0x20100 0 = true ∧ t.core.arr = { s.core.arr with mon := t.core.arr.mon } ∧
       (∀ l, l < 32 → mfind? t.core.arr.mon (monKey l (72 + p.val)) = none) ∧
       (∀ x ∈ s.core.arr.mon, (∀ l, l < 32 → x.1 ≠ monKey l (72 + p.val)) → x ∈ t.core.arr.mon))) ∧
   (∀ (s : State) (p : Fin 3) (v : Word), On s → p.val ≠ 0 → s.ctl.down.contains p.val = true → NoFlip s.core →
     let ran := fun (b : Bool) => { s.ctl with
       down := s.ctl.down.filter (fun x => x != p.val), versions := modAt s.ctl.versions p (fun _ => v)
       mem := mput s.ctl.mem p { image := some b }, tries := mdel s.ctl.tries p }
     (mget s.ctl.tries p 0 = 0 →
       exec (.procRestart p true v) s = .next { s with ctl := ran (s.pwr.slot.getLsbD p) } ∧
       exec (.procRestart p false v) s = .next { s with ctl := { s.ctl with tries := mput s.ctl.tries p 1 } }) ∧
     (mget s.ctl.tries p 0 = 1 →
       Completes (.procRestart p true v) s (fun t => t = { s with core := t.core, pwr := t.pwr, ctl := ran (!s.pwr.slot.getLsbD p) } ∧
         t.pwr = { s.pwr with slot := t.pwr.slot, fallback := t.pwr.fallback } ∧ t.pwr.slot.getLsbD p = !s.pwr.slot.getLsbD p ∧
         flagv t.core 0x20100 14 = true ∧ t.core.arr = s.core.arr) ∧
       Completes (.procRestart p false v) s (fun t => t = { s with core := t.core, ctl := { s.ctl with tries := mput s.ctl.tries p 2 } } ∧
         flagv t.core 0x20100 14 = true ∧ t.core.arr = s.core.arr)) ∧
     (2 ≤ mget s.ctl.tries p 0 → ∀ ok, exec (.procRestart p ok v) s = .next s)) ∧
   (∀ s : State, s.pwr.vddsUp = true → s.sag.lpRun = true → s.sag.lpMem.bad = false → NoFlip s.core →
     Completes .lpFault s (fun t => t = { s with
         ctl := { s.ctl with lig := t.ctl.lig }, sag := { s.sag with lpRestarted := true, lpMem := { image := some s.sag.lpSlot } } } ∧
       (∀ k, (mget t.ctl.lig k {}).owner ≠ 13))) ∧
  (∀ s : State, s.ctl.run = [] →
     (s.core.st.cur ≠ .service → exec .serviceNDeassert s = .next { s with
       pwr := { s.pwr with service := false }, sag := { s.sag with present := false } }) ∧
     (s.core.st.cur = .service → Completes .serviceNDeassert s (fun t =>
       t = { s with core := t.core, pwr := { s.pwr with service := false }, sag := { s.sag with present := false } } ∧
       t.core.st = { cur := .quiesced, prev := .service } ∧ t.core.arr = s.core.arr)))

/-! ### Reset, the invariant, the flit and debug (R32 to R44, R344, R349, R354, R396, R458). -/

/-- Right after cold reset NDR_STATE reads INIT, every register holds its reset value, no sticky flag is set, every counter is 0, every
region decodes as HOLE, each logical slice is borne by its own physical slice, the Flue, the mailboxes and the locks are empty, debug is
locked, and packet RAM has its canonical form. -/
def Obligations.ResetState : Prop :=
  State.reset.pending = [] ∧ Inv State.reset ∧ State.reset.core.st = { cur := .init, prev := .off } ∧
  (∀ off, regv State.reset.core off = wd (regInfo off).reset) ∧ (∀ off b, flagv State.reset.core off b = false) ∧
  (∀ off, ctrv State.reset.core off = 0) ∧ (∀ line, rgnIndex State.reset.core line ≠ none → lineType State.reset.core line = 0) ∧
  (∀ k, physOf State.reset.core k = k) ∧ flueOcc State.reset.core.flue = 0 ∧ (∀ m, (mbxGet State.reset m).full = false) ∧
  (∀ k, (mget State.reset.ctl.lig k {}).owner = 0) ∧ State.reset.sag.debugOpen = 0 ∧ regTrue State.reset 0x10 = 1

/-- Whatever command a step runs, packet RAM keeps its canonical form inside its 256 KiB. -/
def Obligations.StepKeepsPacketRam : Prop := ∀ s t : State, Inv s → step s = .next t → Inv t

/-- A driven flit passes its header parity and gives back every one of its fields, at every value that the header has room for. -/
def Obligations.FlitsRoundTrip : Prop :=
  ∀ f : OutFlit, f.tag < 2 ^ 12 → f.rid < 2 ^ 7 → f.line < 2 ^ 46 → f.seq < 2 ^ 6 →
    hdrOk (encFlit f) = true ∧ decFlit (encFlit f) = some f

/-- No command but DEBUG_UNLOCK opens a debug scope, and DEBUG_UNLOCK opens one only with a token that verifies for the nonce that
stands. -/
def Obligations.DebugStaysLocked : Prop :=
  (∀ (i : Instr) (s t : State), exec i s = .next t → i ≠ .debugUnlock → t.sag.debugOpen = s.sag.debugOpen ∨ t.sag.debugOpen = 0) ∧
  (∀ s t : State, exec .debugUnlock s = .next t → t.sag.debugOpen ≠ s.sag.debugOpen →
    ∃ x ∈ s.ctl.run, x.op = 0x42 ∧
      Config.debugTokenOk s.sag.nonce (BitVec.ofNat 3 (bnum x.params 0 4)) (x.params.drop 4) = true)

/-- R452: only SAG_RESEAL gives Saggar a signing key again. A closed loop does not, and while there is no key every readout shows
UNSEALED, bit 0 of its FLAGS. -/
def Obligations.OnlyResealReseals : Prop :=
  (∀ (i : Instr) (s t : State), exec i s = .next t → s.sag.signKey = none → i ≠ .sagReseal → t.sag.signKey = none) ∧
  (∀ s : State, s.pwr.vddsUp = true → s.sag.signKey = none → Completes (.sealSample (s.sag.lfsr.getLsbD 0)) s (fun t =>
    t.sag.loopOpen = false ∧ t.sag.signKey = none ∧ t.sag.sealed = s.sag.sealed)) ∧
  (∀ (s : State) (nonce : BitVec 256) (collected : Bool), s.sag.signKey = none → bnum (readout s nonce collected).1 6 2 % 2 = 1)


/-! ### Registers (R7 to R9, R344 to R352). -/

/-- Writes and reads of register space. A plain register takes the value written and reads it back; a changed reserved bit stops the run
as undefined; without PRIV and SECURE an RW-P field stays and a Flue event is written; the M-port ignores a write whose byte enables
are not all set; LP is refused outside its window; a REG access of a D-port does the same and is completed; a word of packet RAM reads
back as written and no other byte changes. -/
def Obligations.RegistersReadAndWrite : Prop :=
  (∀ (s : State) (m : Master) (off : BitVec 24) (v : Word), off.toNat ∈ plainRegs → masterLive s m = true → m ≠ .lp →
    rsvChanged s.core m off.toNat v = false →
    exec (.registerWrite m off v 15) s = .next (mAnswer { s with core := regSet s.core off.toNat v } m none false) ∧
    exec (.registerRead m off) s = .next (mAnswer s m (some (regTrue s off.toNat)) false) ∧
    (s.snap.active = false → regTrue s off.toNat = regv s.core off.toNat)) ∧
  (∀ (s : State) (m : Master) (off : BitVec 24) (v : Word), masterLive s m = true → m ≠ .lp → off.toNat % 4 = 0 →
    isRam off.toNat = false → isSag off.toNat = false → mbxForeign m off.toNat = false → rsvChanged s.core m off.toNat v = true →
    exec (.registerWrite m off v 15) s = .fault .reservedBitWritten) ∧
  (∀ (s : State) (m : Master) (v : Word), masterLive s m = true → masterBoth m = false → m ≠ .lp →
    (regv s.core 0x20108 ^^^ v) &&& 0x7FFF ≠ 0 → rsvChanged s.core m 0x20108 v = false →
    Completes (.registerWrite m 0x20108 v 15) s (fun t => t = mAnswer { s with core := t.core } m none false ∧
      regv t.core 0x20108 = regv s.core 0x20108 ∧ t.core.arr = s.core.arr)) ∧
  (∀ (s : State) (p b : Bool) (off : BitVec 24) (v : Word) (be : BitVec 4), On s → be ≠ 15 →
    exec (.registerWrite (.host p b) off v be) s =
      .next (mAnswer { s with core := writeIgnored s.core 1 (off.toNat / 4 * 4) 1 } (.host p b) none false)) ∧
  (∀ (s : State) (off : BitVec 24) (v : Word) (be : BitVec 4), On s → s.sag.lpRun = true → lpMay (off.toNat / 4 * 4) = false →
    exec (.registerWrite .lp off v be) s = .next { s with core := refusedAccess s.core .lp (off.toNat / 4 * 4) true } ∧
    exec (.registerRead .lp off) s = .next { s with core := refusedAccess s.core .lp (off.toNat / 4 * 4) false }) ∧
  (∀ (s : State) (c : Core) (d : Fin 8) (a : Access), s.core = c → On s → (dpGet c d).waiting = some a → a.req.reg = true →
    regOffset a.req ∈ plainRegs → (dpGet c d).closed = false → (dpGet c d).fifo = [] → (dpGet c d).tags = [] → (dpGet c d).loads = [] → (dpGet c d).older = 0 →
    (a.req.op = .load → exec (.regAccess d) s = .next { s with core := (
      dAnswer (dpMod c d (fun y => { y with waiting := none })) d a .ok
        (some (BitVec.ofNat 512 ((regTrue s (regOffset a.req)).toNat * 2 ^ (8 * (regOffset a.req % 64))))) false false) }) ∧
    (a.req.op = .store → rsvChanged c (.direct d a.req.priv a.req.sec) (regOffset a.req) (payWord a.req.data (regOffset a.req % 64 / 4)) = false →
      exec (.regAccess d) s = .next { s with core := (
        dAnswer (dpMod (regSet c (regOffset a.req) (payWord a.req.data (regOffset a.req % 64 / 4))) d (fun y => { y with waiting := none }))
          d a .ok none false false) })) ∧
  (∀ (s : State) (m : Master) (off : BitVec 24) (v : Word) (a : Nat), masterLive s m = true → m ≠ .lp → off.toNat = 0x800000 + a → a % 4 = 0 →
    a < pramSize → NoFlip s.core → Inv s →
    Completes (.registerWrite m off v 15) s (fun t =>
      t = mAnswer { s with pram := t.pram, pramBad := t.pramBad } m none false ∧ memWord t.pram a = v ∧
      (∀ b, (b < a ∨ a + 4 ≤ b) → memGet t.pram b = memGet s.pram b)) ∧
    (ramBad s a 4 = false → exec (.registerRead m off) s = .next (mAnswer s m (some (memWord s.pram a)) false)))

/-- Writes of RGN_CMD. COMMIT installs the staging copy at once and cancels the reservations on the granules it touches, or, while a
generation is open and the range or type changes, waits as PEND for a new OPEN record of CAUSE 3; WREF set refuses writes; WREF
cleared stands cleared, but for a set in the same tick, which stays and sets WREF_AGAIN. -/
def Obligations.RegionCommands : Prop :=
  (∀ (s : State) (c : Core) (m : Master) (r : Fin 16) (e : Region), s.core = c → MayAll s m → mget c.rgn r {} = e → e.wref = false →
    e.pend = false → c.st.cur ≠ .flush → c.st.cur ≠ .halt → Calm c → pinnedLines c (fun line => rgnIndex c line == some r.val) = [] →
    ((s.pers.genOpen = false ∨ needsRecord e = false) →
      Completes (.commit m r 1) s (fun t => t = mAnswer { s with core := t.core } m none false ∧
        RegsKept c t.core (0x10C + 0x10 * r.val) ∧
        t.core = { c with
          regs := t.core.regs
          rgn := mput c.rgn r { e with cur := e.stage, pend := false, keyTold := false, wref := false, wrefClrAt := now c + 1 }
          arr := { c.arr with mon := t.core.arr.mon } } ∧
        (∀ x ∈ c.arr.mon, x ∈ t.core.arr.mon ∨ rgnCovers e.cur (c.dom.inst * 2 ^ 42 + x.2.granule * 2 % 2 ^ 42) = true ∨
          rgnCovers e.stage (c.dom.inst * 2 ^ 42 + x.2.granule * 2 % 2 ^ 42) = true ∨
          rgnCovers e.cur (c.dom.inst * 2 ^ 42 + (x.2.granule * 2 + 1) % 2 ^ 42) = true ∨
          rgnCovers e.stage (c.dom.inst * 2 ^ 42 + (x.2.granule * 2 + 1) % 2 ^ 42) = true) ∧
        (∀ x ∈ t.core.arr.mon, x ∈ c.arr.mon ∧ rgnCovers e.cur (c.dom.inst * 2 ^ 42 + x.2.granule * 2 % 2 ^ 42) = false ∧
          rgnCovers e.stage (c.dom.inst * 2 ^ 42 + x.2.granule * 2 % 2 ^ 42) = false))) ∧
    (s.pers.genOpen = true → needsRecord e = true → s.pers.write = none → s.pers.commits = [] →
      Completes (.commit m r 1) s (fun t => t = mAnswer { s with core := t.core, pers := t.pers } m none false ∧
        RegsKept c t.core (0x10C + 0x10 * r.val) ∧
        t.core = { c with regs := t.core.regs, rgn := mput c.rgn r { e with pend := true, wref := false, wrefClrAt := now c + 1 } } ∧
        t.pers = { s.pers with
          write := some (.region r, openRecord (tableWith t.core r) (nextSeq s.pers) s.pers.gen 3), attempt := true, failed := false }))) ∧
  (∀ (s : State) (c : Core) (m : Master) (r : Fin 16), s.core = c → MayAll s m →
    Completes (.wrefSet m r 0x100) s (fun t => t = mAnswer { s with core := t.core } m none false ∧
      RegsKept c t.core (0x10C + 0x10 * r.val) ∧
      t.core = { c with regs := t.core.regs, rgn := mput c.rgn r { mget c.rgn r {} with wref := true } })) ∧
  (∀ (s : State) (c : Core) (m : Master) (r : Fin 16) (e : Region), s.core = c → MayAll s m → mget c.rgn r {} = e → e.wref = true →
    (e.wrefSetAt = now c + 1 → Completes (.wrefClear m r 0) s (fun t => t = mAnswer { s with core := t.core } m none false ∧
      RegsKept c t.core (0x10C + 0x10 * r.val) ∧ flagv t.core (0x10C + 0x10 * r.val) 9 = true ∧
      t.core = { c with regs := t.core.regs, flags := t.core.flags, rgn := mput c.rgn r { e with wrefClrAt := now c + 1 } })) ∧
    (e.wrefSetAt ≠ now c + 1 → Calm c → pinnedLines c (fun line => rgnIndex c line == some r.val) = [] →
      Completes (.wrefClear m r 0) s (fun t => t = mAnswer { s with core := t.core } m none false ∧
        RegsKept c t.core (0x10C + 0x10 * r.val) ∧
        t.core = { c with regs := t.core.regs, rgn := mput c.rgn r { e with wref := false, wrefClrAt := now c + 1 } })))

/-- Pug and the switch of the line cache. START begins a job of a legal type over the lines of its range, with its counts at 0; ABORT ends
a job that has nothing under way as aborted; PUG_ISSUE sends the next line's action to its home or counts a HOLE line as skipped; LC_EN
cleared stops the use of the cache at once, and LC_EN set resumes it once the cache is off. -/
def Obligations.PugAndLineCache : Prop :=
  (∀ (s : State) (c : Core) (m : Master) (j : Fin 4) (v : Word), s.core = c → MayAll s m → v.getLsbD 3 = true → v.getLsbD 4 = false →
    fld v 2 0 < 6 → (mget c.pug j {}).busy = false → rsvChanged c m (pugBase j.val + 0x18) v = false → pugLineAt c j 0 ≤ pugLineAt c j 8 →
    Completes (.start m j v) s (fun t => t = mAnswer { s with core := t.core } m none false ∧
      t.core = { c with regs := t.core.regs, ctr := t.core.ctr, pug := mput c.pug j {
        busy := true, typ := fld v 2 0, next := pugLineAt c j 0, limit := pugLineAt c j 8
        pat := regv c (pugBase j.val + 0x14) ++ regv c (pugBase j.val + 0x10), lastIssue := now c, serial := (mget c.pug j {}).serial } } ∧
      ctrv t.core (pugBase j.val + 0x20) = 0 ∧ ctrv t.core (pugBase j.val + 0x28) = 0 ∧ ctrv t.core (pugBase j.val + 0x29) = 0 ∧
      ctrv t.core (pugBase j.val + 0x2C) = 0)) ∧
  (∀ (s : State) (c : Core) (m : Master) (j : Fin 4) (v : Word), s.core = c → MayAll s m → v.getLsbD 3 = false → v.getLsbD 4 = true →
    (mget c.pug j {}).busy = true → rsvChanged c m (pugBase j.val + 0x18) v = false →
    Completes (.abort m j v) s (fun t => t = mAnswer { s with core := t.core } m none false ∧
      t.core = { c with regs := t.core.regs, pug := t.core.pug, flags := t.core.flags } ∧
      ((mget c.pug j {}).inFlight = 0 → (mget c.pug j {}).waits = [] →
        (mget t.core.pug j {}).busy = false ∧ flagv t.core (pugBase j.val + 0x1C) 2 = true) ∧
      (0 < (mget c.pug j {}).inFlight → mget t.core.pug j {} = { mget c.pug j {} with aborting := true }))) ∧
  (∀ (s : State) (c : Core) (j : Fin 4) (p : PugJob), s.core = c → mget c.pug j {} = p → p.busy = true → p.issued = false →
    p.aborting = false → (c.st.cur = .ready ∨ c.st.cur = .degraded) → c.arr.trk = [] → c.fab.reqs = [] →
    (lineType c (c.dom.inst * 2 ^ 42 + p.next) = 1 → above16T (c.dom.inst * 2 ^ 42 + p.next) = false →
      CoreTo (.pugIssue j) s (countInj { c with
        pug := mput c.pug j { p with
          next := p.next + 1, issued := decide (p.limit ≤ p.next), inFlight := p.inFlight + 1, lastIssue := now c, serial := p.serial + 1 }
        fab := { c.fab with reqs := [{
          op := .pug, src := epPug, tag := p.serial * 4 + j.val, rid := 76, line := c.dom.inst * 2 ^ 42 + p.next, be := beAll
          data := if p.typ = 4 then pugLine p.pat else 0, shint := j, aux := p.typ }] } } epPug)) ∧
    (lineType c (c.dom.inst * 2 ^ 42 + p.next) = 0 → p.next < p.limit →
      CoreTo (.pugIssue j) s { ctrSat c (pugBase j.val + 0x29) 16 1 with pug := mput c.pug j { p with next := p.next + 1 } })) ∧
  (∀ (s : State) (c : Core) (m : Master) (v : Word), s.core = c → MayAll s m → v.getLsbD 0 = false → rsvChanged c m 0x30100 v = false →
    Completes (.lcDisable m v) s (fun t => t = mAnswer { s with core := t.core } m none false ∧ t.core.lcStop = true ∧
      (c.lcStop = false → c.arr.lc = [] → c.arr.hold = [] → c.bundles = [] → t.core.lcOff = true ∧ t.core.lcBusy = false))) ∧
  (∀ (s : State) (c : Core) (m : Master) (v : Word), s.core = c → MayAll s m → v.getLsbD 0 = true → rsvChanged c m 0x30100 v = false →
    Completes (.lcEnable m v) s (fun t => t = mAnswer { s with core := t.core } m none false ∧
      (c.lcBusy = true → t.core = { c with regs := t.core.regs, lcReen := true }) ∧
      (c.lcBusy = false → c.lcOff = true → t.core = { c with regs := t.core.regs, lcStop := false, lcOff := false })))

/-- Mailboxes, Bells and locks. The sender's write of PTR_HI fills a mailbox that is not FULL and rings its receiver; into a FULL one it
is ignored and marked; the receiver's read of PTR_HI empties it, and CP then takes the packet: a NOP is taken, an unknown opcode answered
with UNSUPPORTED. A read of LIG wins a free lock and shows the owner before it; the owner alone releases it; FORCE breaks it. BELL_SET
rings the bits 28 to 31 written as 1, BELL_CLR clears the bits written as 1 that hardware has not set in the same tick. -/
def Obligations.MailboxesBellsLocks : Prop :=
  (∀ (s : State) (c : Core) (m : Master) (mb : Fin 16) (v : Word), s.core = c → masterLive s m = true → isSender mb m = true →
    lpRefused m (0x10004 + 0x10 * mb.val) = false →
    ((mbxGet s mb).full = false → Completes (.ptrHiWrite m mb v) s (fun t => t = mAnswer { s with
        core := t.core
        ctl := { s.ctl with mbx := mput s.ctl.mbx mb { mbxGet s mb with
          ptr := v ++ (mbxGet s mb).lo, full := true, wpriv := masterPriv m, wsec := masterSec m, writer := ownerOf m } } } m none false ∧
      (mb.val < 8 → t.core = ringProc c 0 mb) ∧ (8 ≤ mb.val → mb.val < 12 → t.core = ring c (mb.val - 8) 0))) ∧
    ((mbxGet s mb).full = true → exec (.ptrHiWrite m mb v) s = .next (mAnswer { s with
      core := writeIgnored (hwSet c (0x10008 + 0x10 * mb.val) 1) (ownerOf m) (0x10004 + 0x10 * mb.val) 4 } m none false))) ∧
  (∀ (s : State) (p b : Bool) (i : Fin 4), On s → (mbxGet s (8 + i.val)).full = true → s.ctl.replies = [] →
    Completes (.ptrHiTake (.host p b) ⟨8 + i.val, by omega⟩) s (fun t => t = mAnswer { s with
      ctl := { s.ctl with mbx := mput s.ctl.mbx (8 + i.val) { mbxGet s (8 + i.val) with full := false } } } (.host p b)
        (some (regTrue s (0x10004 + 0x10 * (8 + i.val)))) false)) ∧
  (∀ (s : State) (mb : Fin 16) (x : Mailbox) (h : List Byte), mb.val < 8 → mbxGet s mb = x → x.full = true → cpTakes s = true →
    s.ctl.replies = [] → (mbxGet s (8 + mb.val / 2)).full = false → ptrWare x.ptr = false → x.ptr.toNat / 2 ^ 48 % 2 ^ 15 = 0 →
    x.ptr.toNat % 64 = 0 → ptrAddr x.ptr + 64 ≤ pramSize → ramBad s (ptrAddr x.ptr) 64 = false → NoFlip s.core → Inv s →
    memGetBytes s.pram (ptrAddr x.ptr) 64 = h → bnum h 2 2 = 0 →
    (bnum h 0 2 = 1 → bnum h 6 2 = 0 → bnum h 12 4 = 0 → s.ctl.run.any (fun y => y.op == 1) = false →
      exec (.ptrHiTake .cp mb) s = .next { s with
        core := ring s.core (mb.val / 2) 1
        ctl := { s.ctl with
          mbx := mput s.ctl.mbx mb { x with full := false }
          run := s.ctl.run ++ [{ op := 1, origin := .box mb x.ptr, params := [], t0 := now s.core, limit := cmdLimit h }] } }) ∧
    (cmdRow (bnum h 0 2) = none → Completes (.ptrHiTake .cp mb) s (fun t =>
      memGetBytes t.pram (ptrAddr x.ptr + 16) 2 = leBytes 8 2 ∧ t.ctl.run = s.ctl.run ∧ (mbxGet t mb).full = false ∧
      (mbxGet t (8 + mb.val / 2)).full = true ∧ (mbxGet t (8 + mb.val / 2)).ptr = x.ptr))) ∧
  (∀ (s : State) (m : Master) (k : Fin 32) (l : Lock), masterLive s m = true → mget s.ctl.lig k {} = l → s.snap.active = false →
    exec (.lig m k) s = .next (mAnswer
      (if l.owner = 0 then { s with ctl := { s.ctl with lig := mput s.ctl.lig k { owner := ownerOf m } } } else s) m
      (some (wd (l.owner + 16 * b2n l.broken + 256 * l.dead))) false)) ∧
  (∀ (s : State) (m : Master) (k : Fin 32) (l : Lock), masterLive s m = true → mget s.ctl.lig k {} = l →
    (l.owner = ownerOf m → exec (.ligRelease m k) s = .next (mAnswer
      { s with ctl := { s.ctl with lig := mput s.ctl.lig k { l with owner := 0 } } } m none false)) ∧
    (l.owner ≠ ownerOf m → exec (.ligRelease m k) s = .next (mAnswer
      { s with core := writeIgnored s.core (ownerOf m) (0x10400 + 4 * k.val) 5 } m none false)) ∧
    (masterBoth m = true → l.owner ≠ 0 → exec (.force m k) s = .next (mAnswer
      { s with ctl := { s.ctl with lig := mput s.ctl.lig k { owner := 0, broken := true, dead := l.owner } } } m none false)) ∧
    (masterBoth m = true → l.owner = 0 → exec (.force m k) s = .next (mAnswer s m none false)) ∧
    (masterBoth m = false → exec (.force m k) s = .next (mAnswer
      { s with core := refusedAccess s.core m (0x10400 + 4 * k.val) true } m none false))) ∧
  (∀ (s : State) (m : Master) (i : Fin 4) (v : Word), masterLive s m = true → m ≠ .lp → rsvChanged s.core m (bellBase i.val + 8) v = false →
    Completes (.bellSet m i v) s (fun t => t = mAnswer { s with core := t.core } m none false ∧
      t.core = { s.core with flags := t.core.flags, regs := t.core.regs } ∧
      (∀ b, 28 ≤ b → b < 32 → v.getLsbD b = true → flagv t.core (bellBase i.val) b = true) ∧
      (∀ b, b < 32 → (b < 28 ∨ v.getLsbD b = false) → flagv t.core (bellBase i.val) b = flagv s.core (bellBase i.val) b))) ∧
  (∀ (s : State) (m : Master) (i : Fin 4) (v : Word), masterLive s m = true → m ≠ .lp →
    Completes (.bellClr m i v) s (fun t => t = mAnswer { s with core := t.core } m none false ∧
      t.core = { s.core with flags := t.core.flags } ∧
      (∀ b, b < 32 → v.getLsbD b = true → (mget s.core.flags (flagKey (bellBase i.val) b) {}).setAt ≠ now s.core + 1 →
        flagv t.core (bellBase i.val) b = false) ∧
      (∀ b, b < 32 → v.getLsbD b = true → flagv s.core (bellBase i.val) b = true →
        (mget s.core.flags (flagKey (bellBase i.val) b) {}).setAt = now s.core + 1 →
        flagv t.core (bellBase i.val) b = true ∧ flagv t.core (bellBase i.val + 0x10) b = true) ∧
      (∀ b, b < 32 → v.getLsbD b = false → flagv t.core (bellBase i.val) b = flagv s.core (bellBase i.val) b)))

/-- Selectors, clears and the Flue's reader. SNAP asks for a capture at the next tick and RELEASE drops it; CONE_SEL latches the readings of
its monitor, and 0 beyond 40; ARB_CLR and FAB_CLR clear the selected counts; ROTATE begins a migration where a spare is ready;
FLIP_MASK and, while its port's reset is asserted, BP_WIN take their value; FLUE_DATA removes the oldest word, or marks UNDERRUN; a bank
taken away loses its unread records. -/
def Obligations.SelectorsAndFlue : Prop :=
  (∀ (s : State) (m : Master), masterLive s m = true → m ≠ .lp → fld (regv s.core 0x300) 31 4 = 0 →
    exec (.snap m 1) s = .next (mAnswer { s with
      core := regSet s.core 0x300 (regv s.core 0x300 &&& 0xF)
      snap := { s.snap with
        active := false, pending := true, words := [], arbSel := regv s.core 0x51000, fabSel := regv s.core 0x60040 } } m none false) ∧
    exec (.snapRelease m 2) s = .next (mAnswer { s with
      core := regSet s.core 0x300 (regv s.core 0x300 &&& 0xF)
      snap := { s.snap with active := false, pending := false, words := [] } } m none false)) ∧
  (∀ (s : State) (m : Master) (v : Word), masterLive s m = true → m ≠ .lp → rsvChanged s.core m 0x200 v = false →
    Completes (.coneSel m v) s (fun t => t = mAnswer { s with core := t.core } m none false ∧
      t.core = { regSet s.core 0x200 v with volt := t.core.volt } ∧
      (fld v 5 0 ≤ 40 → t.core.volt = { s.core.volt with
        speedR := mget s.core.volt.speed (fld v 5 0) 0, tempR := mget s.core.volt.temp (fld v 5 0) 0, marginR := t.core.volt.marginR }) ∧
      (40 < fld v 5 0 → t.core.volt = { s.core.volt with speedR := 0, tempR := 0, marginR := 0 }))) ∧
  (∀ (s : State) (c : Core) (m : Master) (tg rq : Nat), s.core = c → masterLive s m = true → m ≠ .lp → rsvChanged c m 0x51020 1 = false →
    arbSel c = some (tg, rq) → Completes (.arbClr m 1) s (fun t => t = mAnswer { s with core := t.core } m none false ∧
      t.core = { c with regs := t.core.regs, arb := t.core.arb } ∧ (mget t.core.arb (arbSelKey tg rq) {}).grants = 0 ∧
      (mget t.core.arb (arbSelKey tg rq) {}).waits = 0 ∧ (mget t.core.arb (arbSelKey tg rq) {}).maxWait = 0 ∧
      (∀ k, k ≠ arbSelKey tg rq → mfind? t.core.arb k = mfind? c.arb k))) ∧
  (∀ (s : State) (c : Core) (m : Master), s.core = c → masterLive s m = true → m ≠ .lp → rsvChanged c m 0x60054 1 = false →
    Completes (.fabClr m 1) s (fun t => t = mAnswer { s with core := t.core } m none false ∧
      t.core = { c with regs := t.core.regs, hist := t.core.hist } ∧
      mget t.core.hist (injKey (fld (regv c 0x60040) 4 0)) 0 = 0 ∧ mget t.core.hist (ejKey (fld (regv c 0x60040) 4 0)) 0 = 0)) ∧
  (∀ (s : State) (c : Core) (m : Master) (v : Word), s.core = c → masterLive s m = true → m ≠ .lp → rsvChanged c m 0x42000 v = false →
    v.getLsbD 11 = true → Completes (.rotate m v) s (fun t =>
      (∀ q, spareReady s.bisq = some q → s.bisq.migr = none → c.st.cur = .ready → c.ending = false → movable c.bearer q ≠ [] → ∃ sl ∈ movable c.bearer q,
        t.bisq.migr = some (sl, physOf c sl, q) ∧ roleOf t.core sl = .migrating ∧
        ∀ u ∈ movable c.bearer q, mget s.bisq.tested (physOf c sl) 0 ≤ mget s.bisq.tested (physOf c u) 0) ∧
      (spareReady s.bisq = none → t.bisq = s.bisq) ∧ t.pram = s.pram ∧ t.sag = s.sag ∧ t.pers = s.pers)) ∧
  (∀ (s : State) (m : Master) (v : Word), MayAll s m → v &&& 0x1800 = 0 → rsvChanged s.core m 0x40010 v = false →
    exec (.flipMask m v) s = .next (mAnswer { s with
      core := regSet s.core 0x40010 ((regv s.core 0x40010 &&& 0x1800) ||| v) } m none false)) ∧
  (∀ (s : State) (m : Master) (b : Fin 16) (v : Word), masterLive s m = true → m ≠ .lp → rsvChanged s.core m (bpPage b.val) v = false →
    exec (.bpWin m b v) s = .next (mAnswer { s with core := (
      if (bpGet s.core b).resetIn then regSet s.core (bpPage b.val) v else writeIgnored s.core (ownerOf m) (bpPage b.val) 2) } m none false)) ∧
  (∀ (s : State) (c : Core) (m : Master), s.core = c → masterLive s m = true → m ≠ .lp →
    (c.flue.old.words[c.flue.old.read]? = none → exec (.flueData m) s = .next (mAnswer { s with
      core := hwSet { c with flue := { c.flue with tag := 8 } } 0x20008 16 } m (some c.flue.lastWord) false)) ∧
    (∀ x, c.flue.old.words[c.flue.old.read]? = some x → x.bad = false → Completes (.flueData m) s (fun t =>
      t = mAnswer { s with core := { c with flue := t.core.flue } } m (some x.w) false ∧ t.core.flue.lastWord = x.w ∧
      t.core.flue.tag.getLsbD 1 = x.first ∧ t.core.flue.tag.getLsbD 2 = x.gap ∧ flueOcc t.core.flue + 1 = flueOcc c.flue))) ∧
  (∀ (s : State) (c : Core), s.core = c → On s → c.flue.taking = true → c.flue.new.isSome = true →
    Completes .bankTake s (fun t => t = { s with core := t.core } ∧ t.core = { c with flue := t.core.flue, flags := t.core.flags } ∧
      t.core.flue.taking = false ∧ t.core.flue.staging = [] ∧ t.core.flue.lost = c.flue.lost + BitVec.ofNat 32 (flueUnread c.flue.old)))


/-! ### Commands (R377 to R396, R457 to R459). -/

/-- A command ends in its packet with STATUS, DETAIL, its reply and the tick, and its pointer in the reply mailbox: NOP, the two requests
for information, the bounds, the health thresholds and DEBUG_LOCK do so with OK and their effect alone, a command past its own limit
with TIMEOUT and none; a relayed command ends as a CMD_RSP to its instance. -/
def Obligations.CommandsReply : Prop :=
  (∀ (s : State) (x : Cmd) (b : Nat) (p : BitVec 64), Taken s 0x01 0 x b p → Completes .nop s (fun t => Answered s t x b p 0 0 [])) ∧
  (∀ (s : State) (x : Cmd) (b : Nat) (p : BitVec 64), Taken s 0x02 0 x b p →
    Completes .getInfo s (fun t => Answered s t x b p 0 0 (infoReply s)) ∧ (infoReply s).length = 64 ∧
    (infoReply s).take 4 = leBytes 0x00020100 4) ∧
  (∀ (s : State) (x : Cmd) (b : Nat) (p : BitVec 64), Taken s 0x03 0 x b p → s.core.pol.bounds.length + 2 * s.core.pol.health.length ≤ 1520 →
    Completes .getPolicy s (fun t => Answered s t x b p 0 0 (policyReply s.core))) ∧
  (∀ (s : State) (x : Cmd) (b : Nat) (p : BitVec 64), Taken s 0x20 0 x b p → Completes .setBounds s (fun t =>
    Answered { s with core := { s.core with pol := { s.core.pol with bounds := x.params.map (fun y => y.toNat) } } } t x b p 0 0 [])) ∧
  (∀ (s : State) (x : Cmd) (b : Nat) (p : BitVec 64), Taken s 0x22 0 x b p → Completes .setHealth s (fun t =>
    Answered { s with core := { s.core with pol := { s.core.pol with
      health := (List.range 16).map (fun k => bnum x.params (2 * k) 2) } } } t x b p 0 0 [])) ∧
  (∀ (s : State) (x : Cmd) (b : Nat) (p : BitVec 64), Taken s 0x43 0 x b p → Completes .debugLock s (fun t =>
    Answered { s with sag := { s.sag with debugOpen := 0 } } t x b p 0 0 [])) ∧
  (∀ (s : State) (x : Cmd) (b : Nat) (p : BitVec 64) (op : BitVec 16), Taken s op.toNat 0 x b p →
    s.ctl.run.find? (fun y => y.op == op.toNat && decide (y.t0 + y.limit ≤ now s.core)) = some x →
    Completes (.commandTimeout op) s (fun t => Answered s t x b p 7 0 [])) ∧
  (∀ (s : State) (x : Cmd) (rtag i : Nat), cmdAt s 0x01 0 = some x → x.domain = false → x.origin = .relay rtag i → cpRuns s = true → On s →
    exec .nop s = .next { s with
      core := mgtSend s.core 7 i (leBytes rtag 4 ++ leBytes 0 2 ++ leBytes 0 2)
      ctl := { s.ctl with run := s.ctl.run.filter (fun y => y != x) } })

/-- The block states that commands lead to. QUIESCE stops the REQ credits and, once every transaction and every buffered STORE has ended,
leads to QUIESCED; RESUME lets the credits flow again and leads to READY, or to DEGRADED while a slice is served by its partner;
ENTER_SERVICE and LEAVE_SERVICE lead to SERVICE and back; POWER_DOWN of an idle block begins the flush with CAUSE 2. -/
def Obligations.BlockStates : Prop :=
  (∀ (s : State) (x : Cmd), cmdAt s 0x10 0 = some x → cpRuns s = true → On s → exec .quiesce s = .next { s with
    core := { s.core with reqStop := true }
    ctl := { s.ctl with run := s.ctl.run.map (fun y => if y = x then { x with phase := 1 } else y) } }) ∧
  (∀ (s : State) (x : Cmd) (b : Nat) (p : BitVec 64), Taken s 0x10 1 x b p → (s.core.st.cur = .ready ∨ s.core.st.cur = .degraded) →
    (allQuiet s.core = true → Completes .quiesceComplete s (fun t =>
      Answered { s with core := setState s.core .quiesced } t x b p 0 0 [])) ∧
    (allQuiet s.core = false → exec .quiesceComplete s = .next s)) ∧
  (∀ (s : State) (x : Cmd) (b : Nat) (p : BitVec 64), Taken s 0x11 0 x b p → s.core.st.cur = .quiesced →
    (anyOneCopy s.core = false → Completes .resume s (fun t =>
      Answered { s with core := reqOpen (setState s.core .ready) } t x b p 0 0 [])) ∧
    (anyOneCopy s.core = true → spareReady s.bisq = none → Completes .resume s (fun t =>
      Answered { s with core := reqOpen (setState s.core .degraded) } t x b p 0 0 []))) ∧
  (∀ (s : State) (x : Cmd) (b : Nat) (p : BitVec 64), Taken s 0x12 0 x b p → s.core.st.cur = .quiesced →
    Completes .enterService s (fun t => Answered { s with core := setState s.core .service } t x b p 0 0 [])) ∧
  (∀ (s : State) (x : Cmd) (b : Nat) (p : BitVec 64), Taken s 0x13 0 x b p → s.core.st.cur = .service →
    Completes .leaveService s (fun t => Answered { s with core := setState s.core .quiesced } t x b p 0 0 [])) ∧
  (∀ (s : State) (x : Cmd), cmdAt s 0x14 0 = some x → s.ctl.run = [x] → cpRuns s = true →
    (s.core.st.cur = .ready ∨ s.core.st.cur = .quiesced ∨ s.core.st.cur = .degraded ∨ s.core.st.cur = .service) → Idle s →
    Completes .powerDown s (fun t => t.core.st = { cur := .flush, prev := s.core.st.cur } ∧ t.core.ending = true ∧
      t.core.volt.held60 = true ∧ t.pers.flushCause = 2 ∧ t.pers.flushAt = now s.core ∧ t.pers.closing = false ∧
      t.ctl.run = [{ x with phase := 1 }] ∧ t.pram = s.pram ∧ t.sag = s.sag))

/-- Ware ways and firmware. A smaller SET_WARE takes effect at once and drops what the returned ways held; a larger one waits until the
converted ways are empty; FW_UPDATE takes an image of the Ware window that authenticates, and refuses another as DENIED; once it is
written, the other slot is the active one. -/
def Obligations.WareAndFirmware : Prop :=
  (∀ (s : State) (x : Cmd) (b : Nat) (p : BitVec 64), Taken s 0x21 0 x b p → Calm s.core →
    (bnum x.params 0 4 ≤ s.core.arr.wcap → Completes .setWare s (fun t => Answered { s with core := { s.core with arr := { s.core.arr with
      wcap := bnum x.params 0 4, wgoal := none
      ware := s.core.arr.ware.filter (fun y => decide (y.1 < bnum x.params 0 4 * 65536)) } } } t x b p 0 0 [])) ∧
    (s.core.arr.wcap < bnum x.params 0 4 → s.core.arr.lc = [] → exec .setWare s = .next { s with
      core := { s.core with arr := { s.core.arr with wgoal := some (bnum x.params 0 4) } }
      ctl := { s.ctl with run := s.ctl.run.map (fun y => if y = x then { x with phase := 1 } else y) } })) ∧
  (∀ (s : State) (x : Cmd) (b : Nat) (p : BitVec 64) (w : Nat), Taken s 0x21 1 x b p → Calm s.core → s.core.arr.wgoal = some w →
    s.core.arr.lc = [] → Completes .wareConversionDone s (fun t =>
      Answered { s with core := { s.core with arr := { s.core.arr with wcap := w, wgoal := none } } } t x b p 0 0 [])) ∧
  (∀ (s : State) (x : Cmd) (b : Nat) (p : BitVec 64) (c : Core) (l : List Byte), Taken s 0x40 0 x b p → bnum x.params 0 4 < 3 →
    wareBytes ((bnum x.params 12 4 + 63) / 64) s.core (addrLine s.core (bnum x.params 4 8)) [] = (some l, c) → NoFlip c → c.tick = s.core.tick →
    (imageGood (bnum x.params 0 4) (l.take (bnum x.params 12 4)) = true → exec .fwUpdate s = .next { s with
      core := c, ctl := { s.ctl with run := s.ctl.run.map (fun y => if y = x then { x with phase := 1, note := bnum l 8 4 } else y) } }) ∧
    (imageGood (bnum x.params 0 4) (l.take (bnum x.params 12 4)) = false → Completes .fwUpdate s (fun t =>
      Answered { s with core := c } t x b p 5 0 []))) ∧
  (∀ (s : State) (x : Cmd) (b : Nat) (p : BitVec 64), Taken s 0x40 1 x b p →
    (bnum x.params 0 4 < 3 → Completes .imageSlotWritten s (fun t => Answered
      { s with pwr := { s.pwr with sel := setBit3 s.pwr.sel (bnum x.params 0 4) (!s.pwr.sel.getLsbD (bnum x.params 0 4)) } } t x b p 0 0
      (leBytes x.note 4 ++ leBytes (b2n (!s.pwr.sel.getLsbD (bnum x.params 0 4))) 4))) ∧
    (bnum x.params 0 4 = 3 → s.pwr.vddsWarn = false → lpGone s = false → Completes .imageSlotWritten s (fun t => Answered
      { s with sag := { s.sag with lpSlot := !s.sag.lpSlot } } t x b p 0 0 (leBytes x.note 4 ++ leBytes (b2n (!s.sag.lpSlot)) 4))))

/-- Keys, seals and debug. KEY_LOAD of a slot that nothing uses sets its record and the engines and replies with the key's check value, and
refuses a wrap that fails at DETAIL 164; DEBUG_UNLOCK opens its scope where the token verifies and replaces the nonce in either case;
SECURE_ERASE empties the slots it names and ends once they are overwritten; SAG_RESEAL makes a new signing key where the loop is closed;
SAG_READOUT replies with the 1,552 bytes of a readout; with LP down each ends as INTERNAL. A public JTAG instruction has no effect here,
a private one is reported while its scope is locked. -/
def Obligations.KeysAndSecrets : Prop :=
  (∀ (s : State) (x : Cmd) (b : Nat) (p : BitVec 64) (k : Nat), Taken s 0x41 0 x b p → lpGone s = false → s.pwr.vddsWarn = false →
    bnum x.params 0 1 = k → Calm s.core → s.core.reads = [] → s.core.bundles = [] → s.core.keyNext = [] → s.core.arr.lc = [] →
    s.core.arr.hold = [] →
    (∀ v kcv, (bnum x.params 1 1 = 1 ∧ v = .bypass ∧ kcv = 0) ∨ (bnum x.params 1 1 = 2 ∧ v = .empty ∧ kcv = 0) ∨
      (bnum x.params 1 1 = 0 ∧ ∃ y, Config.unwrapKey k x.params = some y ∧ y.extractLsb' 0 256 ≠ y.extractLsb' 256 256 ∧
        v = .key y ∧ kcv = (Config.keyCheck y).toNat) →
      Completes .keyLoad s (fun t => Answered { s with
        sag := { s.sag with keyRecs := mput s.sag.keyRecs k v }
        core := { s.core with keys := mput s.core.keys k v, rgn := t.core.rgn } } t x b p 0 0 (leBytes k 4 ++ leBytes kcv 4) ∧
        ∀ r, (mget t.core.rgn r {}).cur = (mget s.core.rgn r {}).cur)) ∧
    (bnum x.params 1 1 = 0 → Config.unwrapKey k x.params = none → Completes .keyLoad s (fun t => Answered s t x b p 3 164 []))) ∧
  (∀ (s : State) (x : Cmd) (b : Nat) (p : BitVec 64) (scope : BitVec 3), Taken s 0x42 0 x b p → lpGone s = false →
    BitVec.ofNat 3 (bnum x.params 0 4) = scope →
    (Config.debugTokenOk s.sag.nonce scope (x.params.drop 4) = true → Completes .debugUnlock s (fun t => Answered { s with
      core := { s.core with free := s.core.free + 1 }
      sag := { s.sag with debugOpen := s.sag.debugOpen ||| scope, nonce := Config.debugNonce s.core.free } } t x b p 0 0 (leBytes scope.toNat 4))) ∧
    (Config.debugTokenOk s.sag.nonce scope (x.params.drop 4) = false → Completes .debugUnlock s (fun t => Answered { s with
      core := { s.core with free := s.core.free + 1 }
      sag := { s.sag with nonce := Config.debugNonce s.core.free } } t x b p 5 0 []))) ∧
  (∀ (s : State) (x : Cmd), cmdAt s 0x44 0 = some x → cpRuns s = true → On s → lpGone s = false → s.pwr.vddsWarn = false →
    Completes .secureErase s (fun t => t = { s with
        core := t.core, sag := { s.sag with keyRecs := t.sag.keyRecs }
        ctl := { s.ctl with run := s.ctl.run.map (fun y => if y = x then { x with phase := 1 } else y) } } ∧
      (∀ k ∈ eraseMask x, mget t.sag.keyRecs k .empty = .empty) ∧
      (∀ k, k ∉ eraseMask x → mfind? t.sag.keyRecs k = mfind? s.sag.keyRecs k))) ∧
  (∀ (s : State) (x : Cmd) (b : Nat) (p : BitVec 64), Taken s 0x44 1 x b p → lpGone s = false → s.pwr.vddsWarn = false →
    (bnum x.params 2 2 % 2 = 0 ∨ (Calm s.core ∧ s.core.arr.lc = [] ∧ s.core.arr.hold = [])) →
    Completes .secureEraseDone s (fun t => Answered s t x b p 0 0 (leBytes (bnum x.params 0 2) 2))) ∧
  (∀ (s : State) (x : Cmd) (b : Nat) (p : BitVec 64), Taken s 0x45 0 x b p → lpGone s = false → s.pwr.vddsWarn = false →
    (s.sag.loopOpen = true → Completes .sagReseal s (fun t => Answered s t x b p 5 0 [])) ∧
    (s.sag.loopOpen = false → Config.resealOk s.sag.reseals s.sag.lpVer x.params = true → Completes .sagReseal s (fun t => Answered { s with
      core := { s.core with free := s.core.free + 1 }
      sag := { s.sag with signKey := some (Config.signPub s.core.free), sealed := true, cause := 0, reseals := s.sag.reseals + 1 } } t x b p 0 0
      (leBytes (Config.signPub s.core.free).toNat 64 ++ leBytes uidShown.toNat 8 ++ leBytes (s.sag.reseals + 1) 4)))) ∧
  (∀ (s : State) (x : Cmd) (b : Nat) (p : BitVec 64), Taken s 0x46 0 x b p →
    (lpGone s = true → Completes .sagReadout s (fun t => Answered s t x b p 9 0 [])) ∧
    (lpGone s = false → bnum x.params 32 1 = 0xFF → Completes .sagReadout s (fun t =>
      Answered (readout s (BitVec.ofNat 256 (bnum x.params 0 32)) false).2 t x b p 0 0
        (readout s (BitVec.ofNat 256 (bnum x.params 0 32)) false).1) ∧
      (readout s (BitVec.ofNat 256 (bnum x.params 0 32)) false).1.length = 1552)) ∧
  (∀ (s : State) (ir : BitVec 8),
    (publicIr ir = true → exec (.jtagInstruction ir) s = .next s) ∧
    (publicIr ir = false → s.sag.debugOpen.getLsbD 1 = false → On s → CoreTo (.jtagInstruction ir) s (event s.core (Config.openCode 1) [])) ∧
    (publicIr ir = false → s.sag.debugOpen.getLsbD 1 = true → exec (.jtagInstruction ir) s = .refused (.privateJtag ir)))

/-- Commands of the domain. A barrier is announced to the Chanter, which releases it once every member has arrived; the joining mask and a
leave are recorded; a relayed command of the current Chanter is begun like a local one, and its answer is recorded by its target. -/
def Obligations.DomainCommands : Prop :=
  (∀ (s : State) (x : Cmd), cmdAt s 0x30 0 = some x → cpRuns s = true → On s → s.core.dom.role = false → cmdAt s 0x32 1 = none →
    exec .domBarrier s = .next { s with
      core := mgtSend (domMod s.core (fun d => { d with barrier := some (bnum x.params 0 2) })) 8 s.core.dom.chanter
        (leBytes (bnum x.params 0 2) 2)
      ctl := { s.ctl with run := s.ctl.run.map (fun y => if y = x then { x with phase := 1 } else y) } }) ∧
  (∀ (s : State) (x : Cmd) (b : Nat) (p : BitVec 64), Taken s 0x30 0 x b p → s.ctl.run = [x] → s.core.dom.role = true → s.core.dom.inst < 16 →
    others s.core = [] → s.core.dom.arrived = [] → s.core.dom.barrier = none →
    Completes .domBarrier s (fun t => Answered { s with core := mgtAll s.core 9 (leBytes (bnum x.params 0 2) 2) } t x b p 0 0 [])) ∧
  (∀ (s : State) (x : Cmd) (b : Nat) (p : BitVec 64), Taken s 0x31 0 x b p → s.core.dom.role = true → s.core.dom.arrived = [] →
    cmdAt s 0x32 1 = none → (∀ i, isMember s.core i = false → activeRoute s.core i = none) →
    Completes .domJoin s (fun t =>
      Answered { s with core := domMod s.core (fun d => { d with join := BitVec.ofNat 16 (bnum x.params 0 2) }) } t x b p 0 0 [])) ∧
  (∀ (s : State) (x : Cmd), cmdAt s 0x32 0 = some x → cpRuns s = true → On s → s.core.dom.role = false → cmdAt s 0x32 1 = none →
    bnum x.params 0 1 = s.core.dom.inst → others s.core ≠ [] → exec .domLeave s = .next { s with ctl := { s.ctl with
      run := s.ctl.run.map (fun y => if y = x then { x with phase := 1, note := s.core.dom.inst } else y) } }) ∧
  (∀ (s : State) (m : SpanMsg) (c d : Core), On s → hpRuns s = true → takeMgt s.core 8 = some (m, c) → c.dom.role = true →
    c.dom.arrived.contains (mgtNum m 8 2, m.src) = false → cmdAt s 0x32 1 = none →
    d = domMod c (fun y => { y with arrived := y.arrived ++ [(mgtNum m 8 2, m.src)] }) → (∀ b, barrierFull d b = false) → CoreTo .arrive s d) ∧
  (∀ (s : State) (m : SpanMsg) (c : Core) (x : Cmd) (b : Nat) (p : BitVec 64), Taken s 0x30 1 x b p → hpRuns s = true →
    takeMgt s.core 9 = some (m, c) → s.core.dom.barrier = some (mgtNum m 8 2) →
    Completes .release s (fun t => Answered { s with core := domMod c (fun d => { d with barrier := none }) } t x b p 0 0 [])) ∧
  (∀ (s : State) (m : SpanMsg) (c : Core) (h : List Byte), On s → cpTakes s = true → takeMgt s.core 6 = some (m, c) → m.src = c.dom.chanter →
    ((mgtBytes m).drop 16).take 64 = h → bnum h 0 2 = 1 → bnum h 2 2 = 0 → bnum h 6 2 = 0 → bnum h 12 4 = 0 →
    s.ctl.run.any (fun y => y.op == 1) = false → exec .cmd s = .next { s with core := c, ctl := { s.ctl with run := s.ctl.run ++
      [{ op := 1, origin := .relay (mgtNum m 8 4) m.src, params := [], t0 := now c, limit := cmdLimit h }] } }) ∧
  (∀ (s : State) (m : SpanMsg) (c : Core) (x y : Cmd), On s → cpRuns s = true → takeMgt s.core 7 = some (m, c) →
    s.ctl.run.find? (fun z => z.rtags.contains (mgtNum m 8 4, m.src)) = some x → mfind? x.stats m.src = none →
    y = { x with stats := mput x.stats m.src (mgtNum m 12 2) } →
    ((List.range 16).all (fun i => !y.targets.getLsbD i || (mfind? y.stats i).isSome) = false →
      exec .cmdRsp s = .next { s with core := c, ctl := { s.ctl with run := s.ctl.run.map (fun z => if z = x then y else z) } }) ∧
    (∀ b p, (List.range 16).all (fun i => !y.targets.getLsbD i || (mfind? y.stats i).isSome) = true → s.ctl.run = [x] → x.origin = .box b p →
      ptrWare p = false → ptrAddr p + 96 ≤ pramSize → NoFlip s.core → Inv s →
      Completes .cmdRsp s (fun t => t.ctl.run = [] ∧ memGetBytes t.pram (ptrAddr p + 16) 2 = leBytes 0 2 ∧
        memGetBytes t.pram (ptrAddr p + 64) 32 = (List.range 16).flatMap (fun i => leBytes (mget y.stats i 0xFFFF) 2))))


/-! ### The domain (R309 to R321, R434, R449). -/

/-- Domain time and maps. A Drone follows its Chanter's HEARTBEAT by a slew of at most 64 ticks, a step forward or a hold; the Chanter sends
HEARTBEATs every 2^14 ticks and answers ECHO; a Drone sends ECHO requests, marks NO_CHANTER after 65,536 silent ticks, ignores a MEMBER
map that is not ahead of its own and takes the version, the members and the leaving instances of one that is. -/
def Obligations.DomainTimeAndMaps : Prop :=
  (∀ (s : State) (m : SpanMsg) (c : Core), On s → hpRuns s = true → takeMgt s.core 4 = some (m, c) → c.dom.role = false →
    c.dom.chanter = m.src → aheadOf 32 (mgtNum m 16 4) c.dom.mver = false → cmdAt s 0x32 1 = none →
    (((mgtNum m 8 8 + c.dom.delay : Nat) : Int) - c.dom.time.toNat).natAbs ≤ 64 → CoreTo .heartbeat s { c with dom := { c.dom with
      lastBeat := now c, noChanter := false, slew := ((mgtNum m 8 8 + c.dom.delay : Nat) : Int) - c.dom.time.toNat, hold := 0 } }) ∧
  (∀ (s : State) (m : SpanMsg) (c : Core), On s → hpRuns s = true → takeMgt s.core 4 = some (m, c) → c.dom.role = false →
    c.dom.chanter = m.src → aheadOf 32 (mgtNum m 16 4) c.dom.mver = false → cmdAt s 0x32 1 = none →
    (c.dom.time.toNat + 64 < mgtNum m 8 8 + c.dom.delay → CoreTo .heartbeat s { c with dom := { c.dom with
      lastBeat := now c, noChanter := false, time := BitVec.ofNat 64 (mgtNum m 8 8 + c.dom.delay), slew := 0, hold := 0 } }) ∧
    (mgtNum m 8 8 + c.dom.delay + 64 < c.dom.time.toNat → CoreTo .heartbeat s { c with dom := { c.dom with
      lastBeat := now c, noChanter := false, slew := 0, hold := c.dom.time.toNat - (mgtNum m 8 8 + c.dom.delay) } })) ∧
  (∀ s : State, On s → hpRuns s = true → cmdAt s 0x32 1 = none → s.core.dom.arrived = [] →
    (s.core.dom.role = true → s.core.dom.lastBeatSent + 2 ^ 14 ≤ now s.core → s.core.dom.join = 0 →
      CoreTo .heartbeatPeriod s (domMod (mgtAll s.core 4 (leBytes s.core.dom.time.toNat 8 ++ leBytes s.core.dom.mver 4 ++
        leBytes s.core.dom.members.toNat 2 ++ leBytes s.core.dom.leaving.toNat 2)) (fun d => { d with lastBeatSent := now s.core }))) ∧
    (s.core.dom.role = false → exec .heartbeatPeriod s = .next s)) ∧
  (∀ (s : State) (m : SpanMsg) (c : Core), On s → hpRuns s = true → takeMgt s.core 5 = some (m, c) → mgtNum m 8 1 = 0 → c.dom.role = true →
    CoreTo .echo s (mgtSend c 5 m.src (leBytes 1 1 ++ leBytes 0 3 ++ leBytes (mgtNum m 12 4) 4 ++ leBytes (mgtNum m 16 8) 8 ++
      leBytes c.dom.time.toNat 8))) ∧
  (∀ (s : State) (m : SpanMsg) (c : Core), On s → hpRuns s = true → takeMgt s.core 5 = some (m, c) → mgtNum m 8 1 ≠ 0 → c.dom.role = false →
    m.src = c.dom.chanter → mgtNum m 12 4 = c.dom.echoId → Completes .echo s (fun t => t = { s with core := t.core } ∧
      t.core = { c with dom := { c.dom with delay := (now c - mgtNum m 16 8) / 2, time := t.core.dom.time, slew := t.core.dom.slew, hold := t.core.dom.hold } })) ∧
  (∀ s : State, On s → hpRuns s = true → s.core.dom.role = false →
    CoreTo .echoRequest s (mgtSend (domMod s.core (fun d => { d with echoId := (d.echoId + 1) % 2 ^ 32 })) 5 s.core.dom.chanter
      (leBytes 0 4 ++ leBytes ((s.core.dom.echoId + 1) % 2 ^ 32) 4 ++ leBytes (now s.core) 8))) ∧
  (∀ s : State, On s → hpRuns s = true → s.core.dom.role = false → s.core.dom.lastBeat + 65536 ≤ now s.core →
    CoreTo .noChanter s (domMod s.core (fun d => { d with noChanter := true }))) ∧
  (∀ (s : State) (m : SpanMsg) (c : Core), On s → hpRuns s = true → takeMgt s.core 0xC = some (m, c) → c.dom.role = false →
    cmdAt s 0x32 1 = none →
    (aheadOf 32 (mgtNum m 12 4) c.dom.mver = false → CoreTo .member s c) ∧
    (∀ M : BitVec 16, aheadOf 32 (mgtNum m 12 4) c.dom.mver = true → BitVec.ofNat 16 (mgtNum m 8 2) = M → M.getLsbD c.dom.inst = true →
      M.getLsbD c.dom.chanter = true → (∀ i, c.dom.members.getLsbD i = true → M.getLsbD i = true) → c.arr = {} → c.gw = [] →
      mgtNum m 10 2 = 0 →
      Completes .member s (fun t => t = { s with core := t.core } ∧ t.core.dom.mver = mgtNum m 12 4 % 2 ^ 32 ∧
        (∀ i, t.core.dom.members.getLsbD i = M.getLsbD i) ∧ t.core.dom.leaving = 0 ∧ t.core.arr = c.arr)))

/-- Loss, leave and the Chanter's duties. After 65,536 ticks and 4,096 for each number of its instance ID a Drone takes the role; the
Chanter takes an instance without a live route for DEAD_WAIT out of its map, by one version; a member's report of a leave is noted; FUNNEL
packets enter the Chanter's own Flue; a member answers LEDGER with a readout, and the Chanter keeps it and starts a cycle when one is
due. -/
def Obligations.ChanterDuties : Prop :=
  (∀ s : State, On s → hpRuns s = true → s.core.dom.role = false → s.core.dom.lastBeat + 65536 + s.core.dom.inst * 4096 ≤ now s.core →
    s.core.dom.arrived = [] → s.core.dom.barrier = none → cmdAt s 0x32 1 = none → others s.core = [] →
    Completes .chanterTakeover s (fun t => t = { s with core := t.core } ∧ t.core.dom.role = true ∧ t.core.dom.chanter = s.core.dom.inst ∧
      t.core.dom.members = s.core.dom.members ∧ flagv t.core 0x800 11 = true ∧ t.core.arr = s.core.arr)) ∧
  (∀ (s : State) (i : Fin 16) (t0 : Nat), On s → hpRuns s = true → s.core.dom.role = true → mfind? s.core.dom.noRouteAt i = some t0 →
    t0 + deadWait s.core ≤ now s.core + 1 → i.val ≠ s.core.dom.inst → isMember s.core i = true → s.core.arr = {} → s.core.gw = [] →
    s.core.dom.arrived = [] → cmdAt s 0x32 1 = none →
    Completes (.instanceLost i) s (fun t => t = { s with core := t.core } ∧ isMember t.core i = false ∧
      t.core.dom.mver = (s.core.dom.mver + 1) % 2 ^ 32)) ∧
  (∀ (s : State) (i : Fin 16), On s → hpRuns s = true → s.core.dom.role = true → s.core.dom.leaving ≠ 0 → isMember s.core i = true →
    i.val ≠ s.core.dom.inst → Calm s.core → s.core.dom.reports.contains i.val = false → s.core.dom.arrived = [] → cmdAt s 0x32 1 = none →
    (∃ j, j < 16 ∧ isMember s.core j = true ∧ j ≠ i.val ∧ s.core.dom.reports.contains j = false) →
    CoreTo (.leaveReport i) s (domMod s.core (fun d => { d with reports := d.reports ++ [i.val] }))) ∧
  (∀ (s : State) (m : SpanMsg) (c : Core), On s → hpRuns s = true → takeMgt s.core 0xA = some (m, c) → c.dom.role = true →
    mgtNum m 8 4 = 0 → Completes .funnel s (fun t => t = { s with core := t.core } ∧
      t.core = { c with flue := t.core.flue, flags := t.core.flags } ∧
      t.core.flue = (cutRecords (mgtNum m 12 2) ((List.range (((mgtBytes m).length - 16) / 4)).map (fun j =>
        wd (leVal (((mgtBytes m).drop (16 + 4 * j)).take 4))))).foldl flueCommit c.flue)) ∧
  (∀ (s : State) (m : SpanMsg) (c : Core), On s → hpRuns s = true → takeMgt s.core 0xB = some (m, c) → s.sag.lpRun = true →
    s.pwr.vddsUp = true →
    (∀ r, mgtNum m 8 1 = 0 → m.src = c.dom.chanter → r = readout { s with core := c } (BitVec.ofNat 256 (mgtNum m 16 32)) true →
      exec .ledger s = .next { s with
        core := mgtSend c 0xB m.src (leBytes 1 4 ++ leBytes (mgtNum m 12 4) 4 ++ r.1), sag := r.2.sag }) ∧
    (mgtNum m 8 1 ≠ 0 → c.dom.role = true → mgtNum m 12 4 = s.sag.cycle → exec .ledger s = .next { s with
      core := c, sag := { s.sag with collected := mput s.sag.collected m.src (((mgtBytes m).drop 16).take 1552) } })) ∧
  (∀ s : State, On s → hpRuns s = true →
    (s.core.dom.role = false → exec .ledgerCycle s = .next { s with sag := { s.sag with cycleRole := false } }) ∧
    (s.core.dom.role = true → s.sag.lpRun = true → s.pwr.vddsUp = true → (s.sag.cycleRole = false ∨ s.sag.cycleAt + 2 ^ 32 ≤ now s.core) →
      Completes .ledgerCycle s (fun t => t.core = mgtAll { s.core with free := s.core.free + 1 } 0xB
          (leBytes 0 4 ++ leBytes ((s.sag.cycle + 1) % 2 ^ 32) 4 ++ leBytes (Config.cycleNonce s.core.free).toNat 32) ∧
        t.sag.cycle = (s.sag.cycle + 1) % 2 ^ 32 ∧ t.sag.cycleAt = now s.core ∧ t.sag.cycleNonce = Config.cycleNonce s.core.free ∧
        (mfind? t.sag.collected s.core.dom.inst).isSome = true ∧ t.pram = s.pram ∧ t.sag.keyRecs = s.sag.keyRecs)))


/-! ### Slices, links and migration (R28 to R30, R332 to R341, R407 to R417). -/

/-- Failures. A failed spare goes out of service; a failed slice with nothing under way is borne by its partner's physical slice from then
on and the block leads on to DEGRADED; a slice already out is not declared again; a silent partner counts as failed; a failed link is
recorded and a table change begins, which ends with the new routes in force; a change that does not end within 64 ticks fails the
blocking link; a test flit that crosses clears its link's count, one that does not counts. -/
def Obligations.FailedParts : Prop :=
  (∀ (s : State) (ph : Fin 33) (cause : Fin 5) (c1 : Core), On s → s.core.out.contains ph.val = false → cause.val ≠ 4 →
    s.bisq.spare = some ph.val → s.bisq.migr = none → s.bisq.repl = none →
    c1 = alarmEvent (ctrSat s.core 0x4200A 8 1) 13 0x402 [wd ph, wd cause] →
    exec (.sliceFailed ph cause) s = .next { s with
      core := { c1 with
        out := c1.out ++ [ph.val], role := mput c1.role 32 .recovering
        arr := { c1.arr with replace := c1.arr.replace.filter (fun p => p != ph.val) } }
      bisq := { s.bisq with spare := none, testing := false, borrowed := [] } }) ∧
  (∀ (s : State) (ph : Fin 33) (cause : Fin 5) (sl : Nat), s.core.st.cur = .ready → s.core.out.contains ph.val = false → cause.val ≠ 4 →
    s.bisq.spare = none → (List.range 32).filter (fun u => physOf s.core u == ph.val) = [sl] → Idle s →
    Completes (.sliceFailed ph cause) s (fun t => t.core.out = s.core.out ++ [ph.val] ∧ physOf t.core sl = physOf s.core (partnerOf sl) ∧
      roleOf t.core sl = .takeover ∧ t.core.st.cur = .degraded ∧ flagv t.core 0x20100 13 = true ∧ t.pram = s.pram ∧ t.sag = s.sag)) ∧
  (∀ (s : State) (ph : Fin 33) (cause : Fin 5), On s → s.core.out.contains ph.val = true → exec (.sliceFailed ph cause) s = .next s) ∧
  (∀ (s : State) (sl : Fin 32) (k : Nat) (t0 : Trk) (ph : Fin 33), On s → k < 256 → trkGet s.core sl k = some t0 →
    (t0.mirrors ≠ 0 ∨ t0.fcopies ≠ 0) → t0.sentAt + 256 ≤ now s.core → oneCopy s.core sl = false → physOf s.core (partnerOf sl) = ph.val →
    Completes (.mirrorAckTimeout sl k) s (fun t => exec (.sliceFailed ph 1) s = .next t)) ∧
  (∀ (s : State) (l : Fin 112), On s →
    (s.core.fabric.links.contains l.val = true → exec (.linkFailed l) s = .next s) ∧
    (s.core.fabric.links.contains l.val = false →
      (linksOf (linkEnds l).1).all (fun k => (s.core.fabric.links ++ [l.val]).contains k) = false →
      (linksOf (linkEnds l).2).all (fun k => (s.core.fabric.links ++ [l.val]).contains k) = false →
      NoFlip s.core → Completes (.linkFailed l) s (fun t => t = { s with core := t.core } ∧ t.core.arr = s.core.arr ∧ t.core.fab = s.core.fab ∧
        t.core.fabric = { s.core.fabric with
          links := s.core.fabric.links ++ [l.val], quiesce := true, since := now s.core, dests := t.core.fabric.dests } ∧
        (∀ d, d ∈ t.core.fabric.dests ↔ d ∈ s.core.fabric.dests) ∧ flagv t.core (bellBase (routedBank s.core 21)) 21 = true ∧
        ctrv t.core 0x40130 = (ctrv s.core 0x40130 + 1) % 2 ^ 48))) ∧
  (∀ s : State, On s → s.core.fabric.quiesce = true → s.core.fabric.taken = [] → Calm s.core →
    Completes .tableChange s (fun t => t = { s with core := t.core } ∧
      t.core = { s.core with fabric := { s.core.fabric with quiesce := false, dests := [], detour := t.core.fabric.detour } } ∧
      (s.core.fabric.links ≠ [] → t.core.fabric.detour = true))) ∧
  (∀ (s : State) (l : Fin 112), On s → s.core.fabric.quiesce = true → s.core.fabric.since + 64 ≤ now s.core → NoFlip s.core →
    s.core.fabric.links.contains l.val = false →
    (linksOf (linkEnds l).1).all (fun k => (s.core.fabric.links ++ [l.val]).contains k) = false →
    (linksOf (linkEnds l).2).all (fun k => (s.core.fabric.links ++ [l.val]).contains k) = false →
    Completes (.tableChangeTimeout l) s (fun t => t = { s with core := t.core } ∧
      t.core.fabric = { s.core.fabric with
        links := s.core.fabric.links ++ [l.val], quiesce := true, since := now s.core, dests := t.core.fabric.dests } ∧
      (∀ d, d ∈ t.core.fabric.dests ↔ d ∈ s.core.fabric.dests) ∧ t.core.arr = s.core.arr)) ∧
  (∀ (s : State) (l : Fin 112) (dir : Bool), bisqueRuns s.core = true → (regv s.core 0x42000).getLsbD 1 = true →
    s.core.fabric.links.contains l.val = false → mget s.core.fabric.testAt (2 * l.val + b2n dir) 0 ≤ now s.core →
    CoreTo (.linkTestFlit l dir true) s { s.core with fabric := { s.core.fabric with
      testAt := mput s.core.fabric.testAt (2 * l.val + b2n dir) (now s.core + 2 ^ 10)
      testFails := mput s.core.fabric.testFails (2 * l.val + b2n dir) 0 } } ∧
    (mget s.core.fabric.testFails (2 * l.val + b2n dir) 0 < 3 → CoreTo (.linkTestFlit l dir false) s (arrayError
      { s.core with fabric := { s.core.fabric with
        testAt := mput s.core.fabric.testAt (2 * l.val + b2n dir) (now s.core + 2 ^ 10)
        testFails := mput s.core.fabric.testFails (2 * l.val + b2n dir) (mget s.core.fabric.testFails (2 * l.val + b2n dir) 0 + 1) } }
      { cat := 6, kind := 0 })))

/-- Migration. A rotation that is due moves the slice whose bearer's test is oldest into a ready spare next to its partner; the end of the
copy opens the cut-over window, its close makes the spare the bearer and the old bearer the spare, to be tested; a requested replacement
proceeds to the takeover; a spare that passes its test is ready again, one that fails goes out of service. -/
def Obligations.Migration : Prop :=
  (∀ (s : State) (q : Nat), s.core.st.cur = .ready → s.core.ending = false → (regv s.core 0x42000).getLsbD 2 = true → s.bisq.rotAt + rotPeriod s.core ≤ now s.core →
    spareReady s.bisq = some q → s.bisq.migr = none → movable s.core.bearer q ≠ [] →
    Completes .rotation s (fun t => t.bisq.rotAt = now s.core ∧ t.bisq.window = false ∧ t.bisq.rebuild = false ∧
      (∃ sl ∈ movable s.core.bearer q, t.bisq.migr = some (sl, physOf s.core sl, q) ∧ roleOf t.core sl = .migrating ∧
        ∀ u ∈ movable s.core.bearer q, mget s.bisq.tested (physOf s.core sl) 0 ≤ mget s.bisq.tested (physOf s.core u) 0) ∧
      t.core.bearer = s.core.bearer ∧ t.pram = s.pram ∧ t.pers = s.pers)) ∧
  (∀ (s : State) (sl pa pb : Nat), bisqueRuns s.core = true → s.bisq.migr = some (sl, pa, pb) → s.bisq.window = false →
    Completes .migrationCopyDone s (fun t => t = { s with core := t.core, bisq := { s.bisq with window := true } } ∧
      t.core = { s.core with
        role := mput s.core.role sl .cutover, arr := { s.core.arr with mon := t.core.arr.mon, trk := t.core.arr.trk }
        fabric := { s.core.fabric with quiesce := true, since := now s.core, dests := t.core.fabric.dests } } ∧
      (∀ d, d ∈ t.core.fabric.dests ↔ d = sl ∨ d ∈ s.core.fabric.dests) ∧
      (∀ x ∈ t.core.arr.mon, x.1 / 12 ≠ sl ∧ x ∈ s.core.arr.mon) ∧ (∀ x ∈ s.core.arr.mon, x.1 / 12 ≠ sl → x ∈ t.core.arr.mon) ∧
      t.core.arr.trk.length = s.core.arr.trk.length)) ∧
  (∀ (s : State) (sl pa pb : Nat), s.bisq.migr = some (sl, pa, pb) → s.bisq.window = true → s.core.fabric.quiesce = false →
    bisqueRuns s.core = true → s.core.arr = {} → sl < 32 → isLeaving s.core s.core.dom.inst = false →
    Completes .cutoverClose s (fun t => physOf t.core sl = pb ∧ roleOf t.core sl = .active ∧ t.bisq.migr = none ∧ t.bisq.window = false ∧
      t.bisq.rebuild = false ∧ t.core.arr = s.core.arr ∧ t.pram = s.pram ∧
      (s.bisq.rebuild = false → physOf t.core 32 = pa ∧ t.bisq.spare = some pa ∧ t.bisq.testing = true ∧ roleOf t.core 32 = .recovering) ∧
      (s.bisq.rebuild = true → t.bisq.spare = none ∧ t.bisq.testing = false))) ∧
  (∀ (s : State) (ph : Fin 33) (sl : Nat), s.core.st.cur = .ready → s.bisq.migr = none → s.bisq.repl = some ph.val →
    s.core.out.contains ph.val = false → s.bisq.spare = none →
    (List.range 32).filter (fun u => physOf s.core u == ph.val) = [sl] → s.core.arr = {} → s.core.fab = {} → s.core.cport = [] →
    s.core.reads = [] → s.core.bundles = [] → isLeaving s.core s.core.dom.inst = false → NoFlip s.core →
    Completes .cutoverClose s (fun t => t.core.out = s.core.out ++ [ph.val] ∧ physOf t.core sl = physOf s.core (partnerOf sl) ∧
      roleOf t.core sl = .takeover ∧ t.core.st.cur = .degraded ∧ flagv t.core 0x20100 13 = true ∧ t.bisq.repl = none ∧
      t.pram = s.pram)) ∧
  (∀ (s : State) (q : Nat), On s → s.bisq.testing = true → s.bisq.spare = some q →
    (servedByPartner s.core = none → exec (.spareTestDone true) s = .next { s with
      bisq := { s.bisq with testing := false, tested := mput s.bisq.tested q (now s.core) }
      core := { s.core with role := mput s.core.role 32 .spare } }) ∧
    exec (.spareTestDone false) s = .next { s with
      bisq := { s.bisq with testing := false, spare := none, walk := [] }
      core := hwSet { s.core with out := s.core.out ++ [q] } 0x42004 22 })


/-! ### Scrub, tests, policies and the tick (R314, R352, R362, R397, R403 to R405, R419 to R422, R487). -/

/-- Fettler goes on by one location in each scrub and counts its passes; Bisque borrows the locations of one way of one bank and returns
them after the march test, Invalid where they pass; bucket levels fall by one each leak period; CP keeps its policies within their
bounds; the floor of the voltage code rises by 4 while a block is too slow; a tick counts, moves the domain time, and captures a
counter snapshot that has been asked for. -/
def Obligations.BackgroundDuties : Prop :=
  (∀ s : State, bisqueRuns s.core = true → s.core.urgent = [] → (regv s.core 0x41000).getLsbD 0 = true → s.core.arr = {} →
    isLeaving s.core s.core.dom.inst = false → now s.core ≤ s.fet.passAt + passPeriod s.core →
    (s.fet.cat = 0 → s.fet.unit < 33 → s.fet.index < 2048 → Completes .fettlerScrub s (fun t =>
      t = { s with core := t.core, fet := t.fet } ∧ t.core = { s.core with ctr := t.core.ctr } ∧
      t.fet = { s.fet with
        cat := if s.fet.index = 2047 ∧ s.fet.unit = 32 then 1 else 0, unit := if s.fet.index = 2047 then (s.fet.unit + 1) % 33 else s.fet.unit
        index := (s.fet.index + 1) % 2048 })) ∧
    (s.fet.cat = 9 → s.fet.unit = 0 → s.fet.index = 3 → Completes .fettlerScrub s (fun t =>
      t.fet = { passAt := now s.core } ∧ ctrv t.core 0x41004 = (ctrv s.core 0x41004 + 1) % 2 ^ 16))) ∧
  (∀ s : State, bisqueRuns s.core = true → (regv s.core 0x42000).getLsbD 0 = true → s.bisq.borrowed = [] →
    s.bisq.borrowAt + 2 ^ 16 ≤ now s.core → inService s s.bisq.phys = true → s.core.arr.lc = [] → s.core.reads = [] → s.bisq.bank < 8 →
    Completes .bisqueBorrow s (fun t => t.bisq.borrowAt = now s.core ∧
      (∀ k ∈ t.bisq.borrowed, k.1 = s.bisq.phys ∧ k.2.1 < 2048 ∧ k.2.1 % 8 = s.bisq.bank ∧ k.2.2 = s.bisq.way ∧
        (lcRd t.core k.1 k.2.1 k.2.2).use = .borrowed) ∧
      (s.bisq.way < 15 → t.bisq.way = s.bisq.way + 1 ∧ t.bisq.bank = s.bisq.bank ∧ t.bisq.phys = s.bisq.phys) ∧ t.pram = s.pram)) ∧
  (∀ s : State, On s → Calm s.core → (∀ k ∈ s.bisq.borrowed, (lcRd s.core k.1 k.2.1 k.2.2).use = .borrowed) →
    Completes (.marchTestDone []) s (fun t => t = { s with core := t.core, bisq := { s.bisq with borrowed := [] } } ∧
      t.core = { s.core with arr := { s.core.arr with lc := t.core.arr.lc } } ∧
      (∀ k ∈ s.bisq.borrowed, (lcRd t.core k.1 k.2.1 k.2.2).use = .invalid))) ∧
  (∀ s : State, On s → s.core.leakAt + leakPeriod s.core ≤ now s.core →
    CoreTo .bucketLeak s { s.core with leakAt := now s.core, bkt := s.core.bkt.map (fun x => (x.1, x.2 - 1)) }) ∧
  (∀ s : State, policyRuns s.core = true → s.ctl.down.contains 0 = false → s.core.evalAt + 2 ^ 16 ≤ now s.core → s.core.arr.lc = [] →
    Calm s.core → Completes .policyEvaluation s (fun t => t = { s with core := t.core } ∧ t.core.evalAt = now s.core ∧
      t.core.free = s.core.free + 1 ∧ t.core.pol.bounds = s.core.pol.bounds ∧ t.core.pol.evalBounds = s.core.pol.bounds ∧
      t.core.pol.b = clamp (s.core.pol.bounds.getD 0 0) (s.core.pol.bounds.getD 1 0) (Config.policyChoice s.core.free 0) ∧
      t.core.pol.exactMax = clamp (s.core.pol.bounds.getD 2 0) (s.core.pol.bounds.getD 3 0) (Config.policyChoice s.core.free 1) ∧
      t.core.pol.costMax = clamp (s.core.pol.bounds.getD 4 0) (s.core.pol.bounds.getD 5 0) (Config.policyChoice s.core.free 2))) ∧
  (∀ s : State, On s →
    (anyBelow s.core.volt 65 64 = true → s.core.volt.floorAt = 0 → Completes .voltageFloor s (fun t => t = { s with core := t.core } ∧
      t.core = { s.core with volt := { s.core.volt with
        floor := min (s.core.volt.code + 4) 120, floorAt := now s.core + 1, code := t.core.volt.code } } ∧
      (s.core.volt.held60 = false → min (s.core.volt.code + 4) 120 ≤ t.core.volt.code) ∧
      (s.core.volt.held60 = true → t.core.volt.code = 60))) ∧
    (anyBelow s.core.volt 65 64 = false → exec .voltageFloor s = .next s)) ∧
  (∀ s : State, On s → s.core.st.cur ≠ .flush → s.core.lcBusy = false → s.core.dom.funnelQ = [] → s.core.dom.purging = [] →
    Completes (.tbTick []) s (fun t => t = { s with core := t.core, snap := t.snap, mport := { s.mport with rsp := false } } ∧
      t.core = { s.core with
        tick := s.core.tick + 1, dom := timeStep (s.core.tick + 1) s.core.dom, volt := t.core.volt, flags := t.core.flags
        alarmFirst := t.core.alarmFirst } ∧
      (s.core.dom.hold = 0 → s.core.dom.slew = 0 → t.core.dom.time = s.core.dom.time + 1) ∧
      (s.snap.pending = true → t.snap.active = true ∧ t.snap.pending = false ∧
        mfind? t.snap.words 0x20010 = some s.core.flue.lost) ∧
      (s.snap.pending = false → t.snap = s.snap)))


/-! ### Saggar (R437 to R456, R478, R481). -/

/-- Meters, the seal, presence and VDDS. An increment enters its meter and the total, one with bad parity is dropped and told; a transfer
of a quantum leaves the meter's value as it is; a second is counted in the total; a second mismatch in a row opens the seal; SERVICE_N
erases the keys and relocks debug before PRESENT is set; a warning and a loss of VDDS, and its return, leave what R444 and R451 say, where
the cell that LP was writing, a free value, is torn and counts as incremented; test mode entry of a warm reset leaves no key and no line. -/
def Obligations.SaggarKeepsAccount : Prop :=
  (∀ (s : State) (m : MeterMsg) (rest : List MeterMsg), s.pwr.vddsUp = true → s.core.fab.meters = m :: rest →
    exec (.meterIncrement true) s = .next { s with
      core := { s.core with fab := { s.core.fab with meters := rest } }
      sag := meterAdd (meterAdd s.sag m.meter m.q m.amount) 16 m.q m.amount } ∧
    Completes (.meterIncrement false) s (fun t => t.core = { s.core with fab := { s.core.fab with meters := rest } } ∧
      t.sag.inletFault = true ∧ (∀ k q, meterValue t.sag k q = meterValue s.sag k q) ∧
      (meterOf t.sag 16 m.q).underQ = min ((meterOf s.sag 16 m.q).underQ + 1) 0xFFFFFFFF)) ∧
  (∀ (s : State) (m : Fin 17) (q : Fin 5), s.pwr.vddsUp = true → s.sag.lpRun = true → s.pwr.vddsWarn = false →
    Completes (.quantumTransfer m q) s (fun t => t = { s with sag := { s.sag with meters := t.sag.meters } } ∧
      (∀ k j, k < 17 → j < 5 → meterValue t.sag k j = meterValue s.sag k j) ∧
      (quantum q ≤ (meterOf s.sag m q).acc → (meterOf t.sag m q).acc + quantum q = (meterOf s.sag m q).acc))) ∧
  (∀ s : State, On s → s.pwr.vddsUp = true → (s.pwr.seconds + 1) * 100000000 ≤ now s.core →
    Completes .powerOnSecond s (fun t => t = { s with pwr := { s.pwr with seconds := s.pwr.seconds + 1 }, sag := { s.sag with meters := t.sag.meters } } ∧
      (meterOf t.sag 16 3).acc = ((meterOf s.sag 16 3).acc + 1) % 2 ^ 64 ∧
      (∀ k q, k < 17 → q < 5 → q ≠ 3 → meterOf t.sag k q = meterOf s.sag k q))) ∧
  (∀ (s : State) (back : Bool), s.pwr.vddsUp = true →
    (back = s.sag.lfsr.getLsbD 0 → exec (.sealSample back) s = .next { s with
      sag := { s.sag with bad := 0, loopOpen := false, lfsr := Config.sealNext s.sag.lfsr } }) ∧
    (back ≠ s.sag.lfsr.getLsbD 0 → s.sag.bad = 0 → exec (.sealSample back) s = .next { s with
      sag := { s.sag with bad := 1, loopOpen := false, lfsr := Config.sealNext s.sag.lfsr } }) ∧
    (back ≠ s.sag.lfsr.getLsbD 0 → 1 ≤ s.sag.bad → (s.sag.sealed = true ∨ s.sag.signKey.isSome = true) → exec (.sealSample back) s = .next
      { s with sag := { s.sag with
          bad := 2, loopOpen := true, lfsr := Config.sealNext s.sag.lfsr, signKey := none, sealed := false, cause := 1 } })) ∧
  (∀ s : State, s.pwr.vddsUp = true → s.pwr.service = false → Completes .serviceNAssert s (fun t =>
    t.pwr = { s.pwr with service := true } ∧ t.sag.erasing = true ∧ t.sag.present = s.sag.present ∧ t.sag.debugOpen = 0 ∧
    keyedSlots t.sag = [] ∧ t.pram = s.pram ∧ t.sag.meters = s.sag.meters)) ∧
  (∀ s : State, s.pwr.vddsUp = true → s.sag.erasing = true →
    exec .presenceEstablished s = .next { s with sag := { s.sag with erasing := false, present := s.pwr.service } }) ∧
  (∀ s : State, s.pwr.vddsUp = true → exec .vddsWarn s = .next { s with pwr := { s.pwr with vddsWarn := true } }) ∧
  (∀ s : State, Completes .vddsLoss s (fun t => t.pwr = { s.pwr with vddsUp := false } ∧ t.sag.signKey = none ∧ t.sag.sealed = false ∧
    t.sag.cause = 2 ∧ t.sag.lpRun = false ∧ t.sag.keyRecs = s.sag.keyRecs ∧ t.sag.rseq = s.sag.rseq ∧
    (∀ m q, m < 17 → q < 5 →
      let a := meterOf s.sag m q
      let b := meterOf t.sag m q
      b.acc = 0 ∧
      (if (Config.tornCell s.core.free).map Fin.val = some (m * 5 + q) ∧ quantum q ≤ a.acc ∧ s.sag.lpRun = true ∧ s.pwr.vddsUp = true then
        b.base + b.cells = a.base + a.cells + 1 ∧ b.overQ = min (a.overQ + 1) 0xFFFFFFFF
      else b.base = a.base ∧ b.cells = a.cells ∧ b.overQ = a.overQ ∧ b.torn = a.torn)) ∧
    (∀ k, (mget t.ctl.lig k {}).owner ≠ 13) ∧ t.core = (takeFree s.core).2 ∧ t.pram = s.pram)) ∧
  (∀ (s : State) (ok : Bool) (v : Word), s.pwr.vddsUp = false → Completes (.vddsPowerUp ok { version := v }) s (fun t =>
    t.pwr = { s.pwr with vddsUp := true, vddsWarn := false } ∧ t.sag.lpRun = ok ∧ t.sag.sealed = false ∧ t.sag.signKey = none ∧ t.sag.cause = 2 ∧
    t.sag.keyRecs = s.sag.keyRecs ∧ (∀ m q, m < 17 → q < 5 →
      (meterOf t.sag m q).underQ = min ((meterOf s.sag m q).underQ + 1) 0xFFFFFFFF ∧ (meterOf t.sag m q).acc = 0) ∧ t.pram = s.pram)) ∧
  (∀ s : State, s.pwr.resetN = true → s.core.st.cur = .init → s.pwr.warm = true → Completes .testModeEntry s (fun t =>
    t.core.arr = {} ∧ t.core.bundles = [] ∧ t.pers.genOpen = false ∧ t.pwr = { s.pwr with testMode := true, warm := false } ∧
    t.sag.debugOpen = 0 ∧ keyedSlots t.sag = []))
end

