-- ==== Sys2Proof/Laws/Home.lean ====
section
/-! SUPPORT. A home in which every transaction waits stays as it is: what `carry`, which every command at a home runs last, does there. -/

namespace Sys2Proof.Machine

set_option Elab.async false

/-- The key of a tracker entry finds the entry where keys do not repeat. -/
theorem trkGet_mem {c : Core} {t : Trk} (hn : (c.arr.trk.map (fun t => (t.slice, t.idx))).Nodup) (ht : t ∈ c.arr.trk) :
    trkGet c t.slice t.idx = some t := by
  unfold trkGet
  generalize c.arr.trk = l at hn ht
  induction l with
  | nil => cases ht
  | cons a u ih =>
    simp only [List.map_cons, List.nodup_cons, List.mem_map, not_exists, not_and] at hn
    rcases List.mem_cons.mp ht with rfl | h
    · simp
    · have : (a.slice == t.slice && a.idx == t.idx) = false := by
        rw [Bool.eq_false_iff]
        intro e
        simp only [Bool.and_eq_true, beq_iff_eq] at e
        exact hn.1 t h (by rw [e.1, e.2])
      simp only [List.find?_cons, this]
      exact ih hn.2 h

/-- Writing an entry as it stands changes nothing. -/
theorem trkPut_self {c : Core} {t : Trk} (hn : (c.arr.trk.map (fun t => (t.slice, t.idx))).Nodup) (ht : t ∈ c.arr.trk) :
    trkPut c t = c := by
  have h : c.arr.trk.map (fun x => if x.slice = t.slice ∧ x.idx = t.idx then t else x) = c.arr.trk := by
    refine (List.map_congr_left (g := id) ?_).trans (List.map_id _)
    intro x hx
    simp only [id]
    split
    · rename_i e
      have := trkGet_mem hn hx
      rw [e.1, e.2, trkGet_mem hn ht] at this
      exact Option.some.inj this
    · rfl
  unfold trkPut
  rw [h]

/-- No write-back joins where none is deferred. -/
theorem stJoin_of_calm {c : Core} (t : Trk) (h : ∀ b ∈ c.arr.trk, b.st ≠ .deferred) : stJoin (c, t) = (c, t) := by
  have : c.arr.trk.filter (fun b => b.st == .deferred && b.req.line == t.req.line) = [] :=
    List.filter_eq_nil_iff.mpr fun b hb => by simp [h b hb]
  simp only [stJoin, this, List.foldl_nil]

/-- An entry that is clear has no hold notice to send and completes no write-back. -/
theorem stWbs_of_clear {c : Core} {t : Trk} (h : t.Clear c) : stWbs (c, t) = (c, t) := by
  obtain ⟨_, h2, h3, h4⟩ := h
  have hw : t.wbs.filter (fun w => w.kept) = [] := List.filter_eq_nil_iff.mpr fun w hw => by simp [h3 w hw]
  have hm : t.wbs.map (fun w => { w with kept := false }) = t.wbs :=
    (List.map_congr_left (g := id) fun w hw => by rw [← h3 w hw]; rfl).trans (List.map_id _)
  have hr : holdRecs c t = c := by
    have e : (((c.cport.flatMap (fun p => p.2.recs)).filter (fun r => r.phys == t.phys && r.trk == t.idx)).map
        (fun r => recRef r.agent r.phys r.trk)).filter (fun r => !c.fab.holdN.contains r) = [] := by
      refine List.filter_eq_nil_iff.mpr fun r hr => ?_
      simp only [List.mem_map, List.mem_filter, List.mem_flatMap, Bool.and_eq_true, beq_iff_eq] at hr
      obtain ⟨x, ⟨⟨p, hp, hx⟩, e1, e2⟩, rfl⟩ := hr
      simp only [h4 p hp x hx e1 e2, Bool.not_true, Bool.false_eq_true, not_false_eq_true]
    simp only [holdRecs, e, List.append_nil]
  unfold stWbs
  simp only [hr, hw, List.foldl_nil, hm]
  split <;> rfl

/-- A stuck transaction goes no further. -/
theorem advance_stuck {c : Core} {t : Trk} (hd : ∀ b ∈ c.arr.trk, b.st ≠ .deferred)
    (hn : (c.arr.trk.map (fun t => (t.slice, t.idx))).Nodup) (ht : t ∈ c.arr.trk) (hs : t.Stuck c) (hp : t.passed = true) :
    advance c t = c := by
  have hput := trkPut_self hn ht
  suffices h : advanceStages c t = c by simp [advance, h, pairUp]
  rcases hs with h | ⟨k, h⟩
  · rw [h] at hp; cases hp
  have hw := stWbs_of_clear k
  have hj := stJoin_of_calm t hd
  obtain ⟨k1, k2, k3, k4⟩ := k
  have hl : stDrop (c, t) = (c, t) := by simp [stDrop, k1]
  rcases h with ⟨h1, h2⟩ | ⟨h1, h2, h3, h4⟩ | ⟨h1, h2, h3, h4, h5, h6, h7⟩
  · simp [advanceStages, advanceAck, h1, hj, hl, k2, hw, h2, hput]
  · have e : ({ t with st := .gather } : Trk) = t := by rw [← h1]
    have hn' : stNew (c, t) = (c, t) := by simp [stNew, h4]
    have hf : stFwd (c, t) = (c, t) := by simp [stFwd, h3]
    have hi : stIn (c, t) = (c, t) := by simp [stIn, k2]
    have hx : advanceStages c t = trkPut c t := by
      unfold advanceStages
      rw [if_neg (by simp [h1]), e, hj, hn', hf, hl, hi, hw]
      simp only [show t.dirtyIn.isSome = false by rw [k2]; rfl, h2, Bool.false_eq_true, if_false, if_true]
      exact congrArg (trkPut c) e
    rw [hx, hput]
  · obtain ⟨u, hu⟩ : ∃ u : Trk, u = { t with st := .gather } := ⟨_, rfl⟩
    have e : ({ u with st := .mirror } : Trk) = t := by rw [hu, ← h1]
    have g : gathering u = false := by rw [hu]; exact h2
    have uk : u.Clear c := by rw [hu]; exact ⟨k1, k2, k3, k4⟩
    have u1 : u.leave = [] := uk.1
    have u2 : u.dirtyIn = none := uk.2.1
    have u3 : u.data.isSome = true ∨ needsData u = false := by rw [hu]; exact h3
    have u4 : filling u = false := by rw [hu]; exact h4
    have u5 : u.wrote = true ∨ isWrite u = false := by rw [hu]; exact h5
    have u6 : u.lateFilter = false := by rw [hu]; exact h6
    have u7 : ackedAll u = false := by rw [hu]; exact h7
    have u8 : u.st = .gather := by rw [hu]
    have gg := g
    simp only [gathering, Bool.or_eq_false_iff] at gg
    have n1 : u.newEnt = none := by simpa using gg.1.2
    have n2 : u.fwd = none := by simpa using gg.1.1.1.2
    have a0 := stJoin_of_calm u hd
    have a1 : stNew (c, u) = (c, u) := by simp [stNew, n1]
    have a2 : stFwd (c, u) = (c, u) := by simp [stFwd, n2]
    have a3 : stDrop (c, u) = (c, u) := by simp [stDrop, u1]
    have a4 : stIn (c, u) = (c, u) := by simp [stIn, u2]
    have a5 := stWbs_of_clear uk
    have a6 : stData (c, u) = (c, u) := by rcases u3 with d | d <;> simp [stData, d]
    have a7 : stOwn (c, u) = (c, u) := by rcases u5 with d | d <;> simp [stOwn, d]
    have a8 : stLate (c, u) = (c, u) := by simp [stLate, u6]
    have hx : advanceStages c t = trkPut c { u with st := .mirror } := by
      unfold advanceStages
      rw [if_neg (by simp [h1]), ← hu, a0, a1, a2, a3, a4, a5]
      simp only [u2, g, a6, u4, a7, u8, a8, u6, u7, Option.isSome_none, Bool.false_eq_true, if_false, Bool.or_self,
        Bool.not_false, if_true, show (TrkSt.gather == TrkSt.place) = false from rfl]
    rw [hx, e, hput]

/-- Where every entry is stuck a round changes nothing. -/
theorem advanceAll_of_calm {c : Core} (h : Calm c) : advanceAll c = c := by
  have key : ∀ l : List Trk, (∀ t ∈ l, t ∈ c.arr.trk) →
      l.foldl (fun c t0 => match trkGet c t0.slice t0.idx with
        | some t => if t.passed then advance c t else c
        | none => c) c = c := by
    intro l
    induction l with
    | nil => intro _; rfl
    | cons a u ih =>
      intro hl
      have ha := hl a (List.mem_cons_self ..)
      rw [List.foldl_cons, trkGet_mem h.2.1 ha]
      have hstep : (if a.passed = true then advance c a else c) = c := by
        split
        · exact advance_stuck (fun b hb => (h.1 b hb).2) h.2.1 ha (h.1 a ha).1 ‹_›
        · rfl
      simp only [hstep]
      exact ih (fun t ht => hl t (List.mem_cons_of_mem _ ht))
  exact key _ (fun _ ht => ht)

/-- No deferred write-back starts where there is none. -/
theorem startDeferred_of_calm {c : Core} (h : Calm c) : startDeferred c = c := by
  have : c.arr.trk.find? (fun t => t.st == .deferred && !lineBusy c t.req.line) = none := by
    rw [List.find?_eq_none]
    intro t ht
    have := (h.1 t ht).2
    simp [this]
  simp [startDeferred, this]

/-- Rounds over stuck entries change nothing. -/
theorem settleN_of_calm {c : Core} (h : Calm c) (n : Nat) : settleN n c = c := by
  induction n with
  | zero => exact advanceAll_of_calm h
  | succ n ih => rw [settleN, advanceAll_of_calm h, startDeferred_of_calm h, ih]

/-- Nothing goes further where everything is stuck. -/
theorem settle_of_calm {c : Core} (h : Calm c) : settle c = c := settleN_of_calm h _

/-- Nothing at any home goes further where everything is stuck and the homes are at rest. -/
theorem carry_of_calm {c : Core} (h : Calm c) : carry c = c := by
  have ⟨_, _, h1, h2, h3, h4, h5⟩ := h
  have hw : lcWalk (settle (lcLeaveAll c)) = c := by
    rw [show lcLeaveAll c = c by simp [lcLeaveAll, h3], settle_of_calm h]
    simp [lcWalk, h4]
  simp [carry, hw, h2, sweepEnd, h1, leaveStep, h5]

end Sys2Proof.Machine
end

