-- ==== Sys2Proof/Laws/Map.lean ====
section
/-! SUPPORT. Reading a sparse table after writing it. -/

namespace Sys2Proof.Machine

set_option Elab.async false

variable {α : Type}

@[simp] theorem mfind?_mput_self (m : Map α) (k : Nat) (a : α) : mfind? (mput m k a) k = some a := by
  induction m with
  | nil => simp [mput, mfind?]
  | cons p t ih =>
    rw [mput]
    split
    · simp [mfind?]
    · split
      · simp [mfind?]
      · simp [mfind?, *]

theorem mfind?_mput_ne (m : Map α) {k j : Nat} (a : α) (h : j ≠ k) : mfind? (mput m k a) j = mfind? m j := by
  induction m with
  | nil => simp [mput, mfind?, Ne.symm h]
  | cons p t ih =>
    rw [mput]
    split
    · simp [mfind?, Ne.symm h]
    · split
      · rename_i e; simp [mfind?, Ne.symm h, e]
      · simp [mfind?, ih]

@[simp] theorem mget_mput_self (m : Map α) (k : Nat) (a d : α) : mget (mput m k a) k d = a := by simp [mget]

theorem mget_mput_ne (m : Map α) {k j : Nat} (a d : α) (h : j ≠ k) : mget (mput m k a) j d = mget m j d := by
  simp [mget, mfind?_mput_ne m a h]

@[simp] theorem mget_mmod_self (m : Map α) (k : Nat) (d : α) (f : α → α) : mget (mmod m k d f) k d = f (mget m k d) := by
  simp [mmod]

theorem mget_mmod_ne (m : Map α) {k j : Nat} (d : α) (f : α → α) (h : j ≠ k) : mget (mmod m k d f) j d = mget m j d := by
  simp [mmod, mget_mput_ne m _ d h]

@[simp] theorem mfind?_mdel_self (m : Map α) (k : Nat) : mfind? (mdel m k) k = none := by
  induction m with
  | nil => rfl
  | cons p t ih => rw [mdel]; split <;> simp [mfind?, *]

theorem mfind?_mdel_ne (m : Map α) {k j : Nat} (h : j ≠ k) : mfind? (mdel m k) j = mfind? m j := by
  induction m with
  | nil => rfl
  | cons p t ih =>
    rw [mdel]
    split
    · rename_i e; simp [mfind?, ih, e, Ne.symm h]
    · simp [mfind?, ih]

/-- A later write of one entry takes the place of an earlier one. -/
@[simp] theorem mput_mput (m : Map α) (k : Nat) (a b : α) : mput (mput m k a) k b = mput m k b := by
  induction m with
  | nil => simp [mput]
  | cons p t ih =>
    obtain ⟨k', x⟩ := p
    by_cases h : k < k'
    · simp [mput, h]
    · by_cases e : k' = k
      · simp [mput, e]
      · simp [mput, h, e, ih]

end Sys2Proof.Machine
end

