-- ==== Sys2Proof/Laws/Ops.lean ====
section
/-! SUPPORT. What the shared operations can do: packet RAM keeps its canonical form and reads back what was written; a notification changes
the fields of the Bells, the Flue and the error log and no others; a frame that the model builds has a good CRC. -/

namespace Sys2Proof.Machine

set_option Elab.async false

/-! ### Packet RAM -/

/-- A canonical list has no entry below its floor. -/
theorem memGet_below {m : List Host.Cell} {lo a : Nat} (h : memWfFrom lo m = true) (ha : a < lo) : memGet m a = pramDefault := by
  induction m generalizing lo with
  | nil => rfl
  | cons p t ih =>
    simp only [memWfFrom, Bool.and_eq_true, decide_eq_true_eq] at h
    rw [memGet, if_neg (by omega)]
    exact ih h.2 (by omega)

/-- A lower floor asks less. -/
theorem memWfFrom_mono {m : List Host.Cell} {lo lo' : Nat} (h : memWfFrom lo m = true) (hl : lo' ≤ lo) : memWfFrom lo' m = true := by
  cases m with
  | nil => rfl
  | cons p t =>
    simp only [memWfFrom, Bool.and_eq_true, decide_eq_true_eq] at h ⊢
    exact ⟨⟨⟨by omega, h.1.1.2⟩, h.1.2⟩, h.2⟩

/-- Writing a byte inside packet RAM keeps the canonical form above any floor that the address respects. -/
theorem memPut_wfFrom {m : List Host.Cell} {lo a : Nat} (b : Byte) (h : memWfFrom lo m = true) (hl : lo ≤ a) (ha : a < pramSize) :
    memWfFrom lo (memPut m a b) = true := by
  induction m generalizing lo with
  | nil =>
    rw [memPut]
    split
    · rfl
    · simp [memWfFrom, *]
  | cons p t ih =>
    simp only [memWfFrom, Bool.and_eq_true, decide_eq_true_eq] at h
    obtain ⟨⟨⟨h1, h2⟩, h3⟩, h4⟩ := h
    rw [memPut]
    split
    · split
      · simp [memWfFrom, *]
      · simp only [memWfFrom, Bool.and_eq_true, decide_eq_true_eq]
        exact ⟨⟨⟨hl, ha⟩, ‹_›⟩, ⟨⟨by omega, h2⟩, h3⟩, h4⟩
    · split
      · rename_i e
        split
        · exact memWfFrom_mono h4 (by omega)
        · simp only [memWfFrom, Bool.and_eq_true, decide_eq_true_eq]
          exact ⟨⟨⟨hl, ha⟩, ‹_›⟩, e ▸ h4⟩
      · simp only [memWfFrom, Bool.and_eq_true, decide_eq_true_eq]
        exact ⟨⟨⟨h1, h2⟩, h3⟩, ih h4 (by omega)⟩

/-- Writing a byte inside packet RAM keeps the canonical form. -/
theorem memPut_wf {m : List Host.Cell} {a : Nat} (b : Byte) (h : Memory.wf m = true) (ha : a < pramSize) :
    Memory.wf (memPut m a b) = true := memPut_wfFrom b h (Nat.zero_le a) ha

/-- Writing bytes keeps the canonical form. -/
theorem memPutBytes_wf {m : List Host.Cell} (a : Nat) (l : List Byte) (h : Memory.wf m = true) :
    Memory.wf (memPutBytes m a l) = true := by
  induction l generalizing m a with
  | nil => exact h
  | cons b t ih =>
    rw [memPutBytes]
    split
    · exact ih _ (memPut_wf b h ‹_›)
    · exact ih _ h

/-- A byte reads back as it was written. -/
theorem memGet_memPut_selfFrom {m : List Host.Cell} {lo a : Nat} (b : Byte) (h : memWfFrom lo m = true) :
    memGet (memPut m a b) a = b := by
  induction m generalizing lo with
  | nil =>
    rw [memPut]
    split
    · simp [memGet, *]
    · simp [memGet]
  | cons p t ih =>
    simp only [memWfFrom, Bool.and_eq_true, decide_eq_true_eq] at h
    rw [memPut]
    split
    · split
      · rename_i e
        rw [memGet, if_neg (by omega), e]
        exact memGet_below h.2 (by omega)
      · simp [memGet]
    · split
      · rename_i e
        split
        · rename_i d
          rw [d]
          exact memGet_below h.2 (by omega)
        · simp [memGet]
      · rw [memGet, if_neg ‹_›]
        exact ih h.2

/-- A byte of a canonical packet RAM reads back as it was written. -/
theorem memGet_memPut_self {m : List Host.Cell} (a : Nat) (b : Byte) (h : Memory.wf m = true) : memGet (memPut m a b) a = b :=
  memGet_memPut_selfFrom b h

/-- Writing one byte leaves every other byte. -/
theorem memGet_memPut_ne (m : List Host.Cell) {a x : Nat} (b : Byte) (hx : x ≠ a) : memGet (memPut m a b) x = memGet m x := by
  induction m with
  | nil =>
    rw [memPut]
    split
    · rfl
    · simp [memGet, Ne.symm hx]
  | cons p t ih =>
    rw [memPut]
    split
    · split
      · rfl
      · rw [memGet, if_neg (Ne.symm hx)]
    · split
      · rename_i e
        split
        · rw [memGet, if_neg (by omega)]
        · simp [memGet, Ne.symm hx, e]
      · simp only [memGet, ih]

/-- Writing bytes leaves every byte outside them. -/
theorem memGet_memPutBytes_outside (m : List Host.Cell) {a x : Nat} (l : List Byte) (hx : x < a ∨ a + l.length ≤ x) :
    memGet (memPutBytes m a l) x = memGet m x := by
  induction l generalizing m a with
  | nil => rfl
  | cons b t ih =>
    simp only [List.length_cons] at hx
    rw [memPutBytes, ih _ (by omega)]
    split
    · exact memGet_memPut_ne m b (by omega)
    · rfl

/-- Bytes written inside packet RAM read back as they were written. -/
theorem memGetBytes_memPutBytes {m : List Host.Cell} {a : Nat} (l : List Byte) (h : Memory.wf m = true) (ha : a + l.length ≤ pramSize) :
    memGetBytes (memPutBytes m a l) a l.length = l := by
  induction l generalizing m a with
  | nil => rfl
  | cons b t ih =>
    simp only [List.length_cons] at ha
    have hp : a < pramSize := by omega
    rw [memPutBytes, if_pos hp, List.length_cons, memGetBytes, memGet_memPutBytes_outside _ _ (Or.inl (by omega)),
      memGet_memPut_self a b h, ih (memPut_wf b h hp) (by omega)]

/-! ### Registers and flags -/

@[simp] theorem regv_regSet_self (c : Core) (off : Nat) (v : Word) : regv (regSet c off v) off = v := by simp [regv, regSet]

theorem regv_regSet_ne (c : Core) {off x : Nat} (v : Word) (h : x ≠ off) : regv (regSet c off v) x = regv c x := by
  simp [regv, regSet, mget_mput_ne _ _ _ h]

@[simp] theorem ctrv_ctrSet_self (c : Core) (off n : Nat) : ctrv (ctrSet c off n) off = n := by simp [ctrv, ctrSet]

@[simp] theorem ctrv_ctrAdd_self (c : Core) (off w n : Nat) : ctrv (ctrAdd c off w n) off = (ctrv c off + n) % 2 ^ w := by
  simp [ctrv, ctrAdd]

theorem ctrv_ctrAdd_ne (c : Core) {off x : Nat} (w n : Nat) (h : x ≠ off) : ctrv (ctrAdd c off w n) x = ctrv c x := by
  simp [ctrv, ctrAdd, mget_mput_ne _ _ _ h]

/-- A flag that hardware sets reads 1 (R350). -/
theorem flagGet_flagSet_self (m : Map Sticky) (t off b : Nat) : flagGet (flagSet m t off b) off b = true := by
  unfold flagGet flagSet
  dsimp only
  split
  · split
    · rename_i o b' _
      by_cases e : flagKey off b = flagKey o b'
      · rw [e]; simp
      · rw [mget_mput_ne _ _ _ e]; simp
    · simp
  · simp

/-! ### Notifications -/

/-- A flip is not armed for any category where FLIP_MASK's ARM is 0 (R364). -/
theorem flipArmed_false {c : Core} (cat : Nat) (h : (regv c 0x40010).getLsbD 0 = false) : flipArmed c cat = false := by
  rw [flipArmed, h, Bool.false_and]

/-- Raising a bucket changes flags and buckets alone. -/
theorem bucketAdd_frame (c : Core) (cat : Nat) :
    bucketAdd c cat = { c with bkt := (bucketAdd c cat).bkt, flags := (bucketAdd c cat).flags } := by
  simp only [bucketAdd]
  repeat' split
  all_goals rfl

/-- Offering an error to the log changes the log, its sequence number and the count of dropped ones alone. -/
theorem logError_frame (c : Core) (e : ErrAt) :
    logError c e = { c with log := (logError c e).log, logSeq := (logError c e).logSeq, ctr := (logError c e).ctr } := by
  simp only [logError]
  repeat' split
  all_goals rfl

/-- A record changes the Flue, its Bell and, in a Drone, the queue of the funnel. -/
theorem flueAccept_frame (c : Core) (code : Nat) (par : List Word) (al : Bool) :
    flueAccept c code par al = { c with
      flue := (flueAccept c code par al).flue
      flags := (flueAccept c code par al).flags
      dom := { c.dom with funnelQ := (flueAccept c code par al).dom.funnelQ } } := by
  simp only [flueAccept, flueRing]
  repeat' split
  all_goals rfl

/-- Counting an error changes counters, the log, buckets and flags alone. -/
theorem countError_frame (c : Core) (e : ErrAt) :
    countError c e = { c with
      ctr := (countError c e).ctr, log := (countError c e).log, logSeq := (countError c e).logSeq
      bkt := (countError c e).bkt, flags := (countError c e).flags } := by
  simp only [countError]
  rw [bucketAdd_frame, logError_frame]
  rfl

/-- An event changes the notification fields alone. -/
theorem event_frame (c : Core) (code : Nat) (par : List Word) (al : Bool) :
    event c code par al = { c with
      regs := (event c code par al).regs, flags := (event c code par al).flags, ctr := (event c code par al).ctr
      log := (event c code par al).log, logSeq := (event c code par al).logSeq, bkt := (event c code par al).bkt
      flue := (event c code par al).flue
      dom := { c.dom with funnelQ := (event c code par al).dom.funnelQ } } := by
  simp only [event]
  split
  · rw [flueAccept_frame, countError_frame]
    rfl
  · rw [flueAccept_frame]

/-- Without an armed flip an event is its record alone. -/
theorem event_noFlip {c : Core} (code : Nat) (par : List Word) (al : Bool) (h : (regv c 0x40010).getLsbD 0 = false) :
    event c code par al = flueAccept c code par al := by
  simp [event, flipArmed_false 10 h]

/-- An alarm changes flags and the first alarm alone. -/
theorem alarm_frame (c : Core) (b : Nat) :
    alarm c b = { c with flags := (alarm c b).flags, alarmFirst := (alarm c b).alarmFirst } := by
  simp only [alarm]
  repeat' split
  all_goals rfl

/-! ### Span frames -/

/-- A frame that the model builds carries its CRC. -/
@[simp] theorem frameOk_mkFrame (f : Flit) (l : BitVec 64) : frameOk (mkFrame f l) = true := by simp [frameOk, mkFrame]

end Sys2Proof.Machine
end

