-- ==== Sys2Proof/WellFormed.lean ====
section
/-! DEFINITION. Which commands are well formed: the checks on operands that their types do not make. The machine answers an
ill-formed command too; a statement that needs a check names it. -/

namespace Sys2Proof

/-- No operand of a list is named twice: the first entry that equals an operand is that operand's own. -/
def noRepeat {α : Type} [BEq α] (l : List α) : Bool := (List.range l.length).all (fun k => match l[k]? with
  | some x => l.findIdx (fun y => y == x) == k
  | none => true)

/-- The operands that a command's type leaves open lie in the ranges of the spec. -/
def Instr.wellFormed : Instr → Bool
  /- Tracker entries of a slice are numbered 0 to 255 (R77). -/
  | .backInvalidation _ t => decide (t < 256)
  | .bourdonSlotGrant _ t => decide (t < 256)
  | .mirrorWrite _ t => decide (t.trk < 256)
  | .mirrorAck _ t => decide (t < 256)
  | .filterCopyWrite _ t => decide (t ≤ 256)
  | .filterCopyAck _ t => decide (t ≤ 256)
  | .closeNotice _ t => decide (t < 256)
  | .snoopTimeout _ t _ => decide (t < 256)
  | .mirrorAckTimeout _ t => decide (t < 256)
  /- Internal tags of a D-port (R337). -/
  | .storeCmp _ t => decide (t < 512)
  | .abandonNotice _ t => decide (t < 512)
  /- TAGs of a B-port (R33). -/
  | .beReadTimeout _ t => decide (t < 4096)
  | .bundleTimeout _ t => decide (t < 4096)
  /- A message has at most 64 flits (R33, R36). -/
  | .transferGrant _ n => decide (0 < n) && decide (n ≤ 64)
  /- A request line of a mutual-exclusion element waits once. -/
  | .bankArbitration _ _ w _ => decide (w ≠ []) && noRepeat w
  /- A bundle gathers distinct lines, at most 64 of them (R265). -/
  | .backgroundBundling _ l => decide (l ≠ []) && decide (l.length ≤ 64) && noRepeat l
  /- Each Cone reports once a tick (R487). -/
  | .tbTick cones => noRepeat (cones.map (fun x => x.1))
  /- Registers are reached by aligned accesses (R7). -/
  | .registerWrite _ off _ _ => off.toNat % 4 == 0
  | .registerRead _ off => off.toNat % 4 == 0
  /- A way has 16,384 locations at most (R405). -/
  | .marchTestDone l => noRepeat l
  | _ => true

end Sys2Proof
end

