-- ==== Sys2Proof/Laws/PerInstr.lean ====
section
/-! SUPPORT. One law about the commands as syntax, one lemma per constructor: the check of Instr.wellFormed says that the operands lie in
the ranges that the spec gives them, and a command with no such range is always well formed. -/

namespace Sys2Proof.Laws.Shape

set_option Elab.async false

/-- The ranges of a command's operands, as propositions. -/
def Ranges : Instr → Prop
  | .backInvalidation _ t => t < 256
  | .bourdonSlotGrant _ t => t < 256
  | .mirrorWrite _ t => t.trk < 256
  | .mirrorAck _ t => t < 256
  | .filterCopyWrite _ t => t ≤ 256
  | .filterCopyAck _ t => t ≤ 256
  | .closeNotice _ t => t < 256
  | .snoopTimeout _ t _ => t < 256
  | .mirrorAckTimeout _ t => t < 256
  | .storeCmp _ t => t < 512
  | .abandonNotice _ t => t < 512
  | .beReadTimeout _ t => t < 4096
  | .bundleTimeout _ t => t < 4096
  | .transferGrant _ n => 0 < n ∧ n ≤ 64
  | .bankArbitration _ _ w _ => w ≠ [] ∧ noRepeat w = true
  | .backgroundBundling _ l => l ≠ [] ∧ l.length ≤ 64 ∧ noRepeat l = true
  | .tbTick cones => noRepeat (cones.map (fun x => x.1)) = true
  | .registerWrite _ off _ _ => off.toNat % 4 = 0
  | .registerRead _ off => off.toNat % 4 = 0
  | .marchTestDone l => noRepeat l = true
  | _ => True

/-- The check decides the ranges. -/
def Statement (i : Instr) : Prop := i.wellFormed = true ↔ Ranges i

theorem reqIngress (x : ReqSrc) : Statement (.reqIngress x) := ⟨fun _ => trivial, fun _ => rfl⟩
theorem storeEntersBuffer (d : Fin 8) : Statement (.storeEntersBuffer d) := ⟨fun _ => trivial, fun _ => rfl⟩
theorem storeDrain (d : Fin 8) : Statement (.storeDrain d) := ⟨fun _ => trivial, fun _ => rfl⟩
theorem storeCmp (d : Fin 8) (tag : Nat) : Statement (.storeCmp d tag) := by
  simp [Statement, Ranges, Instr.wellFormed]
theorem fence (d : Fin 8) : Statement (.fence d) := ⟨fun _ => trivial, fun _ => rfl⟩
theorem fenceP (d : Fin 8) : Statement (.fenceP d) := ⟨fun _ => trivial, fun _ => rfl⟩
theorem regAccess (d : Fin 8) : Statement (.regAccess d) := ⟨fun _ => trivial, fun _ => rfl⟩
theorem rdShared (r : Ref) : Statement (.rdShared r) := ⟨fun _ => trivial, fun _ => rfl⟩
theorem rdUnique (r : Ref) : Statement (.rdUnique r) := ⟨fun _ => trivial, fun _ => rfl⟩
theorem rdOnce (r : Ref) : Statement (.rdOnce r) := ⟨fun _ => trivial, fun _ => rfl⟩
theorem cleanUnique (r : Ref) : Statement (.cleanUnique r) := ⟨fun _ => trivial, fun _ => rfl⟩
theorem wrFull (r : Ref) : Statement (.wrFull r) := ⟨fun _ => trivial, fun _ => rfl⟩
theorem wrPartial (r : Ref) : Statement (.wrPartial r) := ⟨fun _ => trivial, fun _ => rfl⟩
theorem persist (r : Ref) : Statement (.persist r) := ⟨fun _ => trivial, fun _ => rfl⟩
theorem load (r : Ref) : Statement (.load r) := ⟨fun _ => trivial, fun _ => rfl⟩
theorem drainedStore (r : Ref) : Statement (.drainedStore r) := ⟨fun _ => trivial, fun _ => rfl⟩
theorem loadRes (r : Ref) : Statement (.loadRes r) := ⟨fun _ => trivial, fun _ => rfl⟩
theorem storeCond (r : Ref) : Statement (.storeCond r) := ⟨fun _ => trivial, fun _ => rfl⟩
theorem wbDirty (x : WbSrc) : Statement (.wbDirty x) := ⟨fun _ => trivial, fun _ => rfl⟩
theorem evictClean (x : WbSrc) : Statement (.evictClean x) := ⟨fun _ => trivial, fun _ => rfl⟩
theorem trillPrefetch (r : Ref) : Statement (.trillPrefetch r) := ⟨fun _ => trivial, fun _ => rfl⟩
theorem pugIssue (j : Fin 4) : Statement (.pugIssue j) := ⟨fun _ => trivial, fun _ => rfl⟩
theorem pugLineAction (r : Ref) : Statement (.pugLineAction r) := ⟨fun _ => trivial, fun _ => rfl⟩
theorem backInvalidation (slice : Fin 32) (trk : Nat) : Statement (.backInvalidation slice trk) := by
  simp [Statement, Ranges, Instr.wellFormed]
theorem sweepLine (slice : Fin 32) : Statement (.sweepLine slice) := ⟨fun _ => trivial, fun _ => rfl⟩
theorem bourdonSlotGrant (slice : Fin 32) (trk : Nat) : Statement (.bourdonSlotGrant slice trk) := by
  simp [Statement, Ranges, Instr.wellFormed]
theorem snpResp (x : RspSrc) : Statement (.snpResp x) := ⟨fun _ => trivial, fun _ => rfl⟩
theorem snpRespData (x : RspSrc) : Statement (.snpRespData x) := ⟨fun _ => trivial, fun _ => rfl⟩
theorem fwdDone (x : RspSrc) : Statement (.fwdDone x) := ⟨fun _ => trivial, fun _ => rfl⟩
theorem ack (x : RspSrc) : Statement (.ack x) := ⟨fun _ => trivial, fun _ => rfl⟩
theorem forwardedCmpData (x : RspSrc) : Statement (.forwardedCmpData x) := ⟨fun _ => trivial, fun _ => rfl⟩
theorem completionEgress (r : Ejected) : Statement (.completionEgress r) := ⟨fun _ => trivial, fun _ => rfl⟩
theorem outboundCredit (p : PortId) (cls : Fin 6) : Statement (.outboundCredit p cls) := ⟨fun _ => trivial, fun _ => rfl⟩
theorem mirrorWrite (slice : Fin 32) (trk : MirrorIn) : Statement (.mirrorWrite slice trk) := by
  simp [Statement, Ranges, Instr.wellFormed]
theorem mirrorAck (slice : Fin 32) (trk : Nat) : Statement (.mirrorAck slice trk) := by
  simp [Statement, Ranges, Instr.wellFormed]
theorem filterCopyWrite (slice : Fin 32) (trk : Nat) : Statement (.filterCopyWrite slice trk) := by
  simp [Statement, Ranges, Instr.wellFormed]
theorem filterCopyAck (slice : Fin 32) (trk : Nat) : Statement (.filterCopyAck slice trk) := by
  simp [Statement, Ranges, Instr.wellFormed]
theorem mirrorRelease (slice : Fin 32) (line : Nat) : Statement (.mirrorRelease slice line) := ⟨fun _ => trivial, fun _ => rfl⟩
theorem closeNotice (slice : Fin 32) (trk : Nat) : Statement (.closeNotice slice trk) := by
  simp [Statement, Ranges, Instr.wellFormed]
theorem setReadRequest (slice : Fin 32) (set : Fin 4096) : Statement (.setReadRequest slice set) := ⟨fun _ => trivial, fun _ => rfl⟩
theorem setReadReply (slice : Fin 32) (set : Fin 4096) : Statement (.setReadReply slice set) := ⟨fun _ => trivial, fun _ => rfl⟩
theorem holdNotice (r : Ref) : Statement (.holdNotice r) := ⟨fun _ => trivial, fun _ => rfl⟩
theorem abandonNotice (d : Fin 8) (tag : Nat) : Statement (.abandonNotice d tag) := by
  simp [Statement, Ranges, Instr.wellFormed]
theorem backgroundBundling (slice : Fin 32) (lines : List Nat) : Statement (.backgroundBundling slice lines) := by
  simp [Statement, Ranges, Instr.wellFormed, and_assoc]
theorem transferGrant (b : Fin 16) (flits : Nat) : Statement (.transferGrant b flits) := by
  simp [Statement, Ranges, Instr.wellFormed]
theorem creditWindow (b : Fin 16) : Statement (.creditWindow b) := ⟨fun _ => trivial, fun _ => rfl⟩
theorem bankArbitration (slice : Fin 33) (bank : Fin 8) (waiting : List (Fin 6)) (urgent : Urgency) : Statement (.bankArbitration slice bank waiting urgent) := by
  simp [Statement, Ranges, Instr.wellFormed]
theorem beData (b : Fin 16) (f : Flit) : Statement (.beData b f) := ⟨fun _ => trivial, fun _ => rfl⟩
theorem beDurable (b : Fin 16) (f : Flit) : Statement (.beDurable b f) := ⟨fun _ => trivial, fun _ => rfl⟩
theorem exhausted (b : Fin 16) (f : Flit) : Statement (.exhausted b f) := ⟨fun _ => trivial, fun _ => rfl⟩
theorem scanning (b : Fin 16) (f : Flit) : Statement (.scanning b f) := ⟨fun _ => trivial, fun _ => rfl⟩
theorem ready (b : Fin 16) (f : Flit) : Statement (.ready b f) := ⟨fun _ => trivial, fun _ => rfl⟩
theorem bound (b : Fin 16) (f : Flit) : Statement (.bound b f) := ⟨fun _ => trivial, fun _ => rfl⟩
theorem beHealth (b : Fin 16) (f : Flit) : Statement (.beHealth b f) := ⟨fun _ => trivial, fun _ => rfl⟩
theorem ingressTimeout (r : Ref) : Statement (.ingressTimeout r) := ⟨fun _ => trivial, fun _ => rfl⟩
theorem snoopTimeout (slice : Fin 32) (trk : Nat) (agent : Fin 64) : Statement (.snoopTimeout slice trk agent) := by
  simp [Statement, Ranges, Instr.wellFormed]
theorem beReadTimeout (b : Fin 16) (tag : Nat) : Statement (.beReadTimeout b tag) := by
  simp [Statement, Ranges, Instr.wellFormed]
theorem bundleTimeout (b : Fin 16) (tag : Nat) : Statement (.bundleTimeout b tag) := by
  simp [Statement, Ranges, Instr.wellFormed]
theorem reservationExpiry (slice : Fin 32) (e : Fin 12) : Statement (.reservationExpiry slice e) := ⟨fun _ => trivial, fun _ => rfl⟩
theorem portReset (p : PortId) : Statement (.portReset p) := ⟨fun _ => trivial, fun _ => rfl⟩
theorem portPurgeComplete (p : Fin 16) : Statement (.portPurgeComplete p) := ⟨fun _ => trivial, fun _ => rfl⟩
theorem portResetRelease (p : PortId) : Statement (.portResetRelease p) := ⟨fun _ => trivial, fun _ => rfl⟩
theorem remoteSnoop (k : Fin 4) : Statement (.remoteSnoop k) := ⟨fun _ => trivial, fun _ => rfl⟩
theorem gatewayRequest (k : Fin 4) : Statement (.gatewayRequest k) := ⟨fun _ => trivial, fun _ => rfl⟩
theorem remoteCompletion (k : Fin 4) : Statement (.remoteCompletion k) := ⟨fun _ => trivial, fun _ => rfl⟩
theorem flit (n : Fin 4) (fr : Frame) : Statement (.flit n fr) := ⟨fun _ => trivial, fun _ => rfl⟩
theorem nak (n : Fin 4) (fr : Frame) : Statement (.nak n fr) := ⟨fun _ => trivial, fun _ => rfl⟩
theorem credit (n : Fin 4) (fr : Frame) : Statement (.credit n fr) := ⟨fun _ => trivial, fun _ => rfl⟩
theorem idle (n : Fin 4) (fr : Frame) : Statement (.idle n fr) := ⟨fun _ => trivial, fun _ => rfl⟩
theorem train (n : Fin 4) (fr : Frame) : Statement (.train n fr) := ⟨fun _ => trivial, fun _ => rfl⟩
theorem trainAnnounce (n : Fin 4) : Statement (.trainAnnounce n) := ⟨fun _ => trivial, fun _ => rfl⟩
theorem linkUp (n : Fin 4) : Statement (.linkUp n) := ⟨fun _ => trivial, fun _ => rfl⟩
theorem linkLost (n : LinkLoss) : Statement (.linkLost n) := ⟨fun _ => trivial, fun _ => rfl⟩
theorem spanAckDue (k : Fin 4) (src : Fin 16) : Statement (.spanAckDue k src) := ⟨fun _ => trivial, fun _ => rfl⟩
theorem reissue (k : Fin 4) (dst : Fin 16) : Statement (.reissue k dst) := ⟨fun _ => trivial, fun _ => rfl⟩
theorem hello (n : Fin 4) : Statement (.hello n) := ⟨fun _ => trivial, fun _ => rfl⟩
theorem helloPeriod : Statement (.helloPeriod) := ⟨fun _ => trivial, fun _ => rfl⟩
theorem route (n : Fin 4) : Statement (.route n) := ⟨fun _ => trivial, fun _ => rfl⟩
theorem routePeriod : Statement (.routePeriod) := ⟨fun _ => trivial, fun _ => rfl⟩
theorem spanAck (n : Fin 4) : Statement (.spanAck n) := ⟨fun _ => trivial, fun _ => rfl⟩
theorem heartbeat : Statement (.heartbeat) := ⟨fun _ => trivial, fun _ => rfl⟩
theorem heartbeatPeriod : Statement (.heartbeatPeriod) := ⟨fun _ => trivial, fun _ => rfl⟩
theorem echo : Statement (.echo) := ⟨fun _ => trivial, fun _ => rfl⟩
theorem cmd : Statement (.cmd) := ⟨fun _ => trivial, fun _ => rfl⟩
theorem cmdRsp : Statement (.cmdRsp) := ⟨fun _ => trivial, fun _ => rfl⟩
theorem arrive : Statement (.arrive) := ⟨fun _ => trivial, fun _ => rfl⟩
theorem release : Statement (.release) := ⟨fun _ => trivial, fun _ => rfl⟩
theorem funnel : Statement (.funnel) := ⟨fun _ => trivial, fun _ => rfl⟩
theorem ledger : Statement (.ledger) := ⟨fun _ => trivial, fun _ => rfl⟩
theorem ledgerCycle : Statement (.ledgerCycle) := ⟨fun _ => trivial, fun _ => rfl⟩
theorem member : Statement (.member) := ⟨fun _ => trivial, fun _ => rfl⟩
theorem chanterTakeover : Statement (.chanterTakeover) := ⟨fun _ => trivial, fun _ => rfl⟩
theorem instanceLost (inst : Fin 16) : Statement (.instanceLost inst) := ⟨fun _ => trivial, fun _ => rfl⟩
theorem pwrOkAssert (inst : Fin 16) (chanterN : Bool) : Statement (.pwrOkAssert inst chanterN) := ⟨fun _ => trivial, fun _ => rfl⟩
theorem pwrOkDeassert : Statement (.pwrOkDeassert) := ⟨fun _ => trivial, fun _ => rfl⟩
theorem warmReset : Statement (.warmReset) := ⟨fun _ => trivial, fun _ => rfl⟩
theorem warmResetEffect : Statement (.warmResetEffect) := ⟨fun _ => trivial, fun _ => rfl⟩
theorem calibrationDone (slices : List (Fin 33)) (links : List (Fin 112)) (ports : List PortId) : Statement (.calibrationDone slices links ports) :=
  ⟨fun _ => trivial, fun _ => rfl⟩
theorem imageLoaded (proc : Fin 3) (ok : Bool) (version : Word) : Statement (.imageLoaded proc ok version) :=
  ⟨fun _ => trivial, fun _ => rfl⟩
theorem openRecordWritten (ok : Bool) : Statement (.openRecordWritten ok) := ⟨fun _ => trivial, fun _ => rfl⟩
theorem recordRetry : Statement (.recordRetry) := ⟨fun _ => trivial, fun _ => rfl⟩
theorem pwrfail : Statement (.pwrfail) := ⟨fun _ => trivial, fun _ => rfl⟩
theorem flushLimit : Statement (.flushLimit) := ⟨fun _ => trivial, fun _ => rfl⟩
theorem closeRecord : Statement (.closeRecord) := ⟨fun _ => trivial, fun _ => rfl⟩
theorem flushEnd (ok : Bool) : Statement (.flushEnd ok) := ⟨fun _ => trivial, fun _ => rfl⟩
theorem spanWait : Statement (.spanWait) := ⟨fun _ => trivial, fun _ => rfl⟩
theorem vddsWarn : Statement (.vddsWarn) := ⟨fun _ => trivial, fun _ => rfl⟩
theorem vddsPowerUp (lpOk : Bool) (version : StoreFound) : Statement (.vddsPowerUp lpOk version) := ⟨fun _ => trivial, fun _ => rfl⟩
theorem tbclkLost : Statement (.tbclkLost) := ⟨fun _ => trivial, fun _ => rfl⟩
theorem serviceNAssert : Statement (.serviceNAssert) := ⟨fun _ => trivial, fun _ => rfl⟩
theorem serviceNDeassert : Statement (.serviceNDeassert) := ⟨fun _ => trivial, fun _ => rfl⟩
theorem sealSample (back : Bool) : Statement (.sealSample back) := ⟨fun _ => trivial, fun _ => rfl⟩
theorem testModeEntry : Statement (.testModeEntry) := ⟨fun _ => trivial, fun _ => rfl⟩
theorem procFault (proc : Fin 3) : Statement (.procFault proc) := ⟨fun _ => trivial, fun _ => rfl⟩
theorem procRestart (proc : Fin 3) (ok : Bool) (version : Word) : Statement (.procRestart proc ok version) :=
  ⟨fun _ => trivial, fun _ => rfl⟩
theorem lpFault : Statement (.lpFault) := ⟨fun _ => trivial, fun _ => rfl⟩
theorem sliceFailed (phys : Fin 33) (cause : Fin 5) : Statement (.sliceFailed phys cause) := ⟨fun _ => trivial, fun _ => rfl⟩
theorem mirrorAckTimeout (slice : Fin 32) (trk : Nat) : Statement (.mirrorAckTimeout slice trk) := by
  simp [Statement, Ranges, Instr.wellFormed]
theorem linkFailed (link : Fin 112) : Statement (.linkFailed link) := ⟨fun _ => trivial, fun _ => rfl⟩
theorem tableChange : Statement (.tableChange) := ⟨fun _ => trivial, fun _ => rfl⟩
theorem tableChangeTimeout (link : Fin 112) : Statement (.tableChangeTimeout link) := ⟨fun _ => trivial, fun _ => rfl⟩
theorem fettlerScrub : Statement (.fettlerScrub) := ⟨fun _ => trivial, fun _ => rfl⟩
theorem bisqueBorrow : Statement (.bisqueBorrow) := ⟨fun _ => trivial, fun _ => rfl⟩
theorem linkTestFlit (link : Fin 112) (dir : Bool) (ok : Bool) : Statement (.linkTestFlit link dir ok) := ⟨fun _ => trivial, fun _ => rfl⟩
theorem rotation : Statement (.rotation) := ⟨fun _ => trivial, fun _ => rfl⟩
theorem migrationCopyDone : Statement (.migrationCopyDone) := ⟨fun _ => trivial, fun _ => rfl⟩
theorem cutoverClose : Statement (.cutoverClose) := ⟨fun _ => trivial, fun _ => rfl⟩
theorem spareTestDone (ok : Bool) : Statement (.spareTestDone ok) := ⟨fun _ => trivial, fun _ => rfl⟩
theorem bucketLeak : Statement (.bucketLeak) := ⟨fun _ => trivial, fun _ => rfl⟩
theorem policyEvaluation : Statement (.policyEvaluation) := ⟨fun _ => trivial, fun _ => rfl⟩
theorem voltageFloor : Statement (.voltageFloor) := ⟨fun _ => trivial, fun _ => rfl⟩
theorem bankTake : Statement (.bankTake) := ⟨fun _ => trivial, fun _ => rfl⟩
theorem flueData (m : Master) : Statement (.flueData m) := ⟨fun _ => trivial, fun _ => rfl⟩
theorem meterIncrement (parityOk : Bool) : Statement (.meterIncrement parityOk) := ⟨fun _ => trivial, fun _ => rfl⟩
theorem quantumTransfer (meter : Fin 17) (q : Fin 5) : Statement (.quantumTransfer meter q) := ⟨fun _ => trivial, fun _ => rfl⟩
theorem powerOnSecond : Statement (.powerOnSecond) := ⟨fun _ => trivial, fun _ => rfl⟩
theorem commit (m : Master) (r : Fin 16) (v : Word) : Statement (.commit m r v) := ⟨fun _ => trivial, fun _ => rfl⟩
theorem wrefClear (m : Master) (r : Fin 16) (v : Word) : Statement (.wrefClear m r v) := ⟨fun _ => trivial, fun _ => rfl⟩
theorem wrefSet (m : Master) (r : Fin 16) (v : Word) : Statement (.wrefSet m r v) := ⟨fun _ => trivial, fun _ => rfl⟩
theorem start (m : Master) (j : Fin 4) (v : Word) : Statement (.start m j v) := ⟨fun _ => trivial, fun _ => rfl⟩
theorem abort (m : Master) (j : Fin 4) (v : Word) : Statement (.abort m j v) := ⟨fun _ => trivial, fun _ => rfl⟩
theorem lcDisable (m : Master) (v : Word) : Statement (.lcDisable m v) := ⟨fun _ => trivial, fun _ => rfl⟩
theorem lcEnable (m : Master) (v : Word) : Statement (.lcEnable m v) := ⟨fun _ => trivial, fun _ => rfl⟩
theorem snap (m : Master) (v : Word) : Statement (.snap m v) := ⟨fun _ => trivial, fun _ => rfl⟩
theorem snapRelease (m : Master) (v : Word) : Statement (.snapRelease m v) := ⟨fun _ => trivial, fun _ => rfl⟩
theorem ptrHiWrite (m : Master) (mb : Fin 16) (v : Word) : Statement (.ptrHiWrite m mb v) := ⟨fun _ => trivial, fun _ => rfl⟩
theorem ptrHiTake (m : Master) (mb : Fin 16) : Statement (.ptrHiTake m mb) := ⟨fun _ => trivial, fun _ => rfl⟩
theorem lig (m : Master) (k : Fin 32) : Statement (.lig m k) := ⟨fun _ => trivial, fun _ => rfl⟩
theorem ligRelease (m : Master) (k : Fin 32) : Statement (.ligRelease m k) := ⟨fun _ => trivial, fun _ => rfl⟩
theorem force (m : Master) (k : Fin 32) : Statement (.force m k) := ⟨fun _ => trivial, fun _ => rfl⟩
theorem bellSet (m : Master) (bank : Fin 4) (v : Word) : Statement (.bellSet m bank v) := ⟨fun _ => trivial, fun _ => rfl⟩
theorem bellClr (m : Master) (bank : Fin 4) (v : Word) : Statement (.bellClr m bank v) := ⟨fun _ => trivial, fun _ => rfl⟩
theorem coneSel (m : Master) (v : Word) : Statement (.coneSel m v) := ⟨fun _ => trivial, fun _ => rfl⟩
theorem arbClr (m : Master) (v : Word) : Statement (.arbClr m v) := ⟨fun _ => trivial, fun _ => rfl⟩
theorem fabClr (m : Master) (v : Word) : Statement (.fabClr m v) := ⟨fun _ => trivial, fun _ => rfl⟩
theorem rotate (m : Master) (v : Word) : Statement (.rotate m v) := ⟨fun _ => trivial, fun _ => rfl⟩
theorem flipMask (m : Master) (v : Word) : Statement (.flipMask m v) := ⟨fun _ => trivial, fun _ => rfl⟩
theorem bpWin (m : Master) (b : Fin 16) (v : Word) : Statement (.bpWin m b v) := ⟨fun _ => trivial, fun _ => rfl⟩
theorem registerWrite (m : Master) (off : BitVec 24) (v : Word) (be : BitVec 4) : Statement (.registerWrite m off v be) := by
  simp [Statement, Ranges, Instr.wellFormed]
theorem nop : Statement (.nop) := ⟨fun _ => trivial, fun _ => rfl⟩
theorem getInfo : Statement (.getInfo) := ⟨fun _ => trivial, fun _ => rfl⟩
theorem getPolicy : Statement (.getPolicy) := ⟨fun _ => trivial, fun _ => rfl⟩
theorem quiesce : Statement (.quiesce) := ⟨fun _ => trivial, fun _ => rfl⟩
theorem quiesceComplete : Statement (.quiesceComplete) := ⟨fun _ => trivial, fun _ => rfl⟩
theorem resume : Statement (.resume) := ⟨fun _ => trivial, fun _ => rfl⟩
theorem enterService : Statement (.enterService) := ⟨fun _ => trivial, fun _ => rfl⟩
theorem leaveService : Statement (.leaveService) := ⟨fun _ => trivial, fun _ => rfl⟩
theorem powerDown : Statement (.powerDown) := ⟨fun _ => trivial, fun _ => rfl⟩
theorem setBounds : Statement (.setBounds) := ⟨fun _ => trivial, fun _ => rfl⟩
theorem setWare : Statement (.setWare) := ⟨fun _ => trivial, fun _ => rfl⟩
theorem wareConversionDone : Statement (.wareConversionDone) := ⟨fun _ => trivial, fun _ => rfl⟩
theorem setHealth : Statement (.setHealth) := ⟨fun _ => trivial, fun _ => rfl⟩
theorem domBarrier : Statement (.domBarrier) := ⟨fun _ => trivial, fun _ => rfl⟩
theorem domJoin : Statement (.domJoin) := ⟨fun _ => trivial, fun _ => rfl⟩
theorem domLeave : Statement (.domLeave) := ⟨fun _ => trivial, fun _ => rfl⟩
theorem fwUpdate : Statement (.fwUpdate) := ⟨fun _ => trivial, fun _ => rfl⟩
theorem keyLoad : Statement (.keyLoad) := ⟨fun _ => trivial, fun _ => rfl⟩
theorem debugUnlock : Statement (.debugUnlock) := ⟨fun _ => trivial, fun _ => rfl⟩
theorem debugLock : Statement (.debugLock) := ⟨fun _ => trivial, fun _ => rfl⟩
theorem secureErase : Statement (.secureErase) := ⟨fun _ => trivial, fun _ => rfl⟩
theorem sagReseal : Statement (.sagReseal) := ⟨fun _ => trivial, fun _ => rfl⟩
theorem sagReadout : Statement (.sagReadout) := ⟨fun _ => trivial, fun _ => rfl⟩
theorem commandTimeout (op : BitVec 16) : Statement (.commandTimeout op) := ⟨fun _ => trivial, fun _ => rfl⟩
theorem tbTick (cones : List (Fin 41 × BitVec 16 × BitVec 16)) : Statement (.tbTick cones) := by
  simp [Statement, Ranges, Instr.wellFormed]
theorem vddsLoss : Statement (.vddsLoss) := ⟨fun _ => trivial, fun _ => rfl⟩
theorem noChanter : Statement (.noChanter) := ⟨fun _ => trivial, fun _ => rfl⟩
theorem echoRequest : Statement (.echoRequest) := ⟨fun _ => trivial, fun _ => rfl⟩
theorem registerRead (m : Master) (off : BitVec 24) : Statement (.registerRead m off) := by
  simp [Statement, Ranges, Instr.wellFormed]
theorem leaveReport (inst : Fin 16) : Statement (.leaveReport inst) := ⟨fun _ => trivial, fun _ => rfl⟩
theorem jtagInstruction (ir : BitVec 8) : Statement (.jtagInstruction ir) := ⟨fun _ => trivial, fun _ => rfl⟩
theorem marchTestDone (failed : List Nat) : Statement (.marchTestDone failed) := by
  simp [Statement, Ranges, Instr.wellFormed]
theorem presenceEstablished : Statement (.presenceEstablished) := ⟨fun _ => trivial, fun _ => rfl⟩
theorem imageSlotWritten : Statement (.imageSlotWritten) := ⟨fun _ => trivial, fun _ => rfl⟩
theorem secureEraseDone : Statement (.secureEraseDone) := ⟨fun _ => trivial, fun _ => rfl⟩

end Sys2Proof.Laws.Shape
end

