-- ==== Sys2Proof/Laws/Run.lean ====
section
/-! SUPPORT. What a command does through the shared ways of answering: a command on the data side changes the data side alone and answers
a next state; and what a write into packet RAM keeps. -/

namespace Sys2Proof.Machine

set_option Elab.async false

variable {s t : State} {f : Core → Core}

/-- A command on the data side answers a next state, which differs in the data side alone. -/
theorem onCore_next (h : onCore s f = .next t) : (s.core.st.cur = .off ∧ t = s) ∨ (On s ∧ t = { s with core := f s.core }) := by
  unfold onCore at h
  split at h
  · exact .inl ⟨‹_›, by simpa using h.symm⟩
  · exact .inr ⟨‹_›, by simpa using h.symm⟩

/-- Outside OFF a command on the data side has its effect. -/
theorem onCore_on (h : On s) : onCore s f = .next { s with core := f s.core } := if_neg h

/-- Only the data side changes. -/
theorem onCore_frame (h : onCore s f = .next t) : t = { s with core := t.core } := by
  obtain ⟨_, rfl⟩ | ⟨_, rfl⟩ := onCore_next h <;> rfl

/-- A command on the data side keeps the invariant. -/
theorem onCore_inv (h : onCore s f = .next t) (hi : Inv s) : Inv t := by
  rw [onCore_frame h]
  exact hi

/-- A command on the whole machine answers a next state. -/
theorem onState_next {f : State → State} (h : onState s f = .next t) : (s.core.st.cur = .off ∧ t = s) ∨ (On s ∧ t = f s) := by
  unfold onState at h
  by_cases hs : s.core.st.cur = .off
  · rw [if_pos hs] at h; cases h; exact .inl ⟨hs, rfl⟩
  · rw [if_neg hs] at h; cases h; exact .inr ⟨hs, rfl⟩

/-- Outside OFF a command on the whole machine has its effect. -/
theorem onState_on {f : State → State} (h : On s) : onState s f = .next (f s) := if_neg h

/-- A command of a packet is carried out where CP has taken it and runs; else nothing changes. -/
theorem onCmd_next {op : Nat} {f : State → Cmd → State} (h : onCmd s op f = .next t) :
    t = s ∨ ∃ x, cmdAt s op 0 = some x ∧ cpRuns s = true ∧ On s ∧ t = f s x := by
  unfold onCmd at h
  cases hx : cmdAt s op 0 with
  | none => simp only [hx] at h; cases h; exact .inl rfl
  | some x =>
    simp only [hx] at h
    by_cases hc : (cpRuns s && s.core.st.cur != .off) = true
    · have hc' := (Bool.and_eq_true _ _).mp hc
      rw [if_pos hc] at h
      exact .inr ⟨x, rfl, hc'.1, by simpa using hc'.2, by cases h; rfl⟩
    · rw [if_neg hc] at h; cases h; exact .inl rfl

/-- The one operation that writes packet RAM keeps its canonical form (R344). -/
theorem ramWrite_inv (a : Nat) (l : List Byte) (h : Inv s) : Inv (ramWrite s a l) := by
  unfold ramWrite
  exact memPutBytes_wf a l h

end Sys2Proof.Machine
end

