-- ==== Sys2Proof/Laws/State.lean ====
section
/-! SUPPORT. What each small update of the state does to each field: one lemma per field and update, true by unfolding. -/

namespace Sys2Proof.Machine

set_option Elab.async false

/-! ### Updates of a part of State -/

@[simp] theorem withCore_pending (s : State) (f : Core → Core) : (withCore s f).pending = s.pending := rfl
@[simp] theorem withCore_pram (s : State) (f : Core → Core) : (withCore s f).pram = s.pram := rfl
@[simp] theorem withCore_pramBad (s : State) (f : Core → Core) : (withCore s f).pramBad = s.pramBad := rfl
@[simp] theorem withCore_core (s : State) (f : Core → Core) : (withCore s f).core = f s.core := rfl
@[simp] theorem withCore_ctl (s : State) (f : Core → Core) : (withCore s f).ctl = s.ctl := rfl
@[simp] theorem withCore_sag (s : State) (f : Core → Core) : (withCore s f).sag = s.sag := rfl
@[simp] theorem withCore_pers (s : State) (f : Core → Core) : (withCore s f).pers = s.pers := rfl
@[simp] theorem withCore_pwr (s : State) (f : Core → Core) : (withCore s f).pwr = s.pwr := rfl
@[simp] theorem withCore_fet (s : State) (f : Core → Core) : (withCore s f).fet = s.fet := rfl
@[simp] theorem withCore_bisq (s : State) (f : Core → Core) : (withCore s f).bisq = s.bisq := rfl
@[simp] theorem withCore_snap (s : State) (f : Core → Core) : (withCore s f).snap = s.snap := rfl
@[simp] theorem withCore_mport (s : State) (f : Core → Core) : (withCore s f).mport = s.mport := rfl

@[simp] theorem withCtl_pending (s : State) (f : Ctl → Ctl) : (withCtl s f).pending = s.pending := rfl
@[simp] theorem withCtl_pram (s : State) (f : Ctl → Ctl) : (withCtl s f).pram = s.pram := rfl
@[simp] theorem withCtl_pramBad (s : State) (f : Ctl → Ctl) : (withCtl s f).pramBad = s.pramBad := rfl
@[simp] theorem withCtl_core (s : State) (f : Ctl → Ctl) : (withCtl s f).core = s.core := rfl
@[simp] theorem withCtl_ctl (s : State) (f : Ctl → Ctl) : (withCtl s f).ctl = f s.ctl := rfl
@[simp] theorem withCtl_sag (s : State) (f : Ctl → Ctl) : (withCtl s f).sag = s.sag := rfl
@[simp] theorem withCtl_pers (s : State) (f : Ctl → Ctl) : (withCtl s f).pers = s.pers := rfl
@[simp] theorem withCtl_pwr (s : State) (f : Ctl → Ctl) : (withCtl s f).pwr = s.pwr := rfl
@[simp] theorem withCtl_fet (s : State) (f : Ctl → Ctl) : (withCtl s f).fet = s.fet := rfl
@[simp] theorem withCtl_bisq (s : State) (f : Ctl → Ctl) : (withCtl s f).bisq = s.bisq := rfl
@[simp] theorem withCtl_snap (s : State) (f : Ctl → Ctl) : (withCtl s f).snap = s.snap := rfl
@[simp] theorem withCtl_mport (s : State) (f : Ctl → Ctl) : (withCtl s f).mport = s.mport := rfl

@[simp] theorem withSag_pending (s : State) (f : Saggar → Saggar) : (withSag s f).pending = s.pending := rfl
@[simp] theorem withSag_pram (s : State) (f : Saggar → Saggar) : (withSag s f).pram = s.pram := rfl
@[simp] theorem withSag_pramBad (s : State) (f : Saggar → Saggar) : (withSag s f).pramBad = s.pramBad := rfl
@[simp] theorem withSag_core (s : State) (f : Saggar → Saggar) : (withSag s f).core = s.core := rfl
@[simp] theorem withSag_ctl (s : State) (f : Saggar → Saggar) : (withSag s f).ctl = s.ctl := rfl
@[simp] theorem withSag_sag (s : State) (f : Saggar → Saggar) : (withSag s f).sag = f s.sag := rfl
@[simp] theorem withSag_pers (s : State) (f : Saggar → Saggar) : (withSag s f).pers = s.pers := rfl
@[simp] theorem withSag_pwr (s : State) (f : Saggar → Saggar) : (withSag s f).pwr = s.pwr := rfl
@[simp] theorem withSag_fet (s : State) (f : Saggar → Saggar) : (withSag s f).fet = s.fet := rfl
@[simp] theorem withSag_bisq (s : State) (f : Saggar → Saggar) : (withSag s f).bisq = s.bisq := rfl
@[simp] theorem withSag_snap (s : State) (f : Saggar → Saggar) : (withSag s f).snap = s.snap := rfl
@[simp] theorem withSag_mport (s : State) (f : Saggar → Saggar) : (withSag s f).mport = s.mport := rfl

@[simp] theorem mbxMod_pending (s : State) (m : Nat) (f : Mailbox → Mailbox) : (mbxMod s m f).pending = s.pending := rfl
@[simp] theorem mbxMod_pram (s : State) (m : Nat) (f : Mailbox → Mailbox) : (mbxMod s m f).pram = s.pram := rfl
@[simp] theorem mbxMod_pramBad (s : State) (m : Nat) (f : Mailbox → Mailbox) : (mbxMod s m f).pramBad = s.pramBad := rfl
@[simp] theorem mbxMod_core (s : State) (m : Nat) (f : Mailbox → Mailbox) : (mbxMod s m f).core = s.core := rfl
@[simp] theorem mbxMod_sag (s : State) (m : Nat) (f : Mailbox → Mailbox) : (mbxMod s m f).sag = s.sag := rfl
@[simp] theorem mbxMod_pers (s : State) (m : Nat) (f : Mailbox → Mailbox) : (mbxMod s m f).pers = s.pers := rfl
@[simp] theorem mbxMod_pwr (s : State) (m : Nat) (f : Mailbox → Mailbox) : (mbxMod s m f).pwr = s.pwr := rfl
@[simp] theorem mbxMod_fet (s : State) (m : Nat) (f : Mailbox → Mailbox) : (mbxMod s m f).fet = s.fet := rfl
@[simp] theorem mbxMod_bisq (s : State) (m : Nat) (f : Mailbox → Mailbox) : (mbxMod s m f).bisq = s.bisq := rfl
@[simp] theorem mbxMod_snap (s : State) (m : Nat) (f : Mailbox → Mailbox) : (mbxMod s m f).snap = s.snap := rfl
@[simp] theorem mbxMod_mport (s : State) (m : Nat) (f : Mailbox → Mailbox) : (mbxMod s m f).mport = s.mport := rfl

@[simp] theorem cmdPut_pending (s : State) (x y : Cmd) : (cmdPut s x y).pending = s.pending := rfl
@[simp] theorem cmdPut_pram (s : State) (x y : Cmd) : (cmdPut s x y).pram = s.pram := rfl
@[simp] theorem cmdPut_pramBad (s : State) (x y : Cmd) : (cmdPut s x y).pramBad = s.pramBad := rfl
@[simp] theorem cmdPut_core (s : State) (x y : Cmd) : (cmdPut s x y).core = s.core := rfl
@[simp] theorem cmdPut_sag (s : State) (x y : Cmd) : (cmdPut s x y).sag = s.sag := rfl
@[simp] theorem cmdPut_pers (s : State) (x y : Cmd) : (cmdPut s x y).pers = s.pers := rfl
@[simp] theorem cmdPut_pwr (s : State) (x y : Cmd) : (cmdPut s x y).pwr = s.pwr := rfl
@[simp] theorem cmdPut_fet (s : State) (x y : Cmd) : (cmdPut s x y).fet = s.fet := rfl
@[simp] theorem cmdPut_bisq (s : State) (x y : Cmd) : (cmdPut s x y).bisq = s.bisq := rfl
@[simp] theorem cmdPut_snap (s : State) (x y : Cmd) : (cmdPut s x y).snap = s.snap := rfl
@[simp] theorem cmdPut_mport (s : State) (x y : Cmd) : (cmdPut s x y).mport = s.mport := rfl

/-! ### Updates of a part of Core -/

@[simp] theorem regSet_tick (c : Core) (off : Nat) (v : Word) : (regSet c off v).tick = c.tick := rfl
@[simp] theorem regSet_free (c : Core) (off : Nat) (v : Word) : (regSet c off v).free = c.free := rfl
@[simp] theorem regSet_st (c : Core) (off : Nat) (v : Word) : (regSet c off v).st = c.st := rfl
@[simp] theorem regSet_regs (c : Core) (off : Nat) (v : Word) : (regSet c off v).regs = mput c.regs off v := rfl
@[simp] theorem regSet_flags (c : Core) (off : Nat) (v : Word) : (regSet c off v).flags = c.flags := rfl
@[simp] theorem regSet_ctr (c : Core) (off : Nat) (v : Word) : (regSet c off v).ctr = c.ctr := rfl
@[simp] theorem regSet_rgn (c : Core) (off : Nat) (v : Word) : (regSet c off v).rgn = c.rgn := rfl
@[simp] theorem regSet_cport (c : Core) (off : Nat) (v : Word) : (regSet c off v).cport = c.cport := rfl
@[simp] theorem regSet_dport (c : Core) (off : Nat) (v : Word) : (regSet c off v).dport = c.dport := rfl
@[simp] theorem regSet_bport (c : Core) (off : Nat) (v : Word) : (regSet c off v).bport = c.bport := rfl
@[simp] theorem regSet_sport (c : Core) (off : Nat) (v : Word) : (regSet c off v).sport = c.sport := rfl
@[simp] theorem regSet_gw (c : Core) (off : Nat) (v : Word) : (regSet c off v).gw = c.gw := rfl
@[simp] theorem regSet_dom (c : Core) (off : Nat) (v : Word) : (regSet c off v).dom = c.dom := rfl
@[simp] theorem regSet_arr (c : Core) (off : Nat) (v : Word) : (regSet c off v).arr = c.arr := rfl
@[simp] theorem regSet_bearer (c : Core) (off : Nat) (v : Word) : (regSet c off v).bearer = c.bearer := rfl
@[simp] theorem regSet_role (c : Core) (off : Nat) (v : Word) : (regSet c off v).role = c.role := rfl
@[simp] theorem regSet_out (c : Core) (off : Nat) (v : Word) : (regSet c off v).out = c.out := rfl
@[simp] theorem regSet_bundles (c : Core) (off : Nat) (v : Word) : (regSet c off v).bundles = c.bundles := rfl
@[simp] theorem regSet_nextBundle (c : Core) (off : Nat) (v : Word) : (regSet c off v).nextBundle = c.nextBundle := rfl
@[simp] theorem regSet_reads (c : Core) (off : Nat) (v : Word) : (regSet c off v).reads = c.reads := rfl
@[simp] theorem regSet_fab (c : Core) (off : Nat) (v : Word) : (regSet c off v).fab = c.fab := rfl
@[simp] theorem regSet_wire (c : Core) (off : Nat) (v : Word) : (regSet c off v).wire = c.wire := rfl
@[simp] theorem regSet_fabric (c : Core) (off : Nat) (v : Word) : (regSet c off v).fabric = c.fabric := rfl
@[simp] theorem regSet_pug (c : Core) (off : Nat) (v : Word) : (regSet c off v).pug = c.pug := rfl
@[simp] theorem regSet_lcOff (c : Core) (off : Nat) (v : Word) : (regSet c off v).lcOff = c.lcOff := rfl
@[simp] theorem regSet_lcBusy (c : Core) (off : Nat) (v : Word) : (regSet c off v).lcBusy = c.lcBusy := rfl
@[simp] theorem regSet_lcReen (c : Core) (off : Nat) (v : Word) : (regSet c off v).lcReen = c.lcReen := rfl
@[simp] theorem regSet_lcStop (c : Core) (off : Nat) (v : Word) : (regSet c off v).lcStop = c.lcStop := rfl
@[simp] theorem regSet_trill (c : Core) (off : Nat) (v : Word) : (regSet c off v).trill = c.trill := rfl
@[simp] theorem regSet_pol (c : Core) (off : Nat) (v : Word) : (regSet c off v).pol = c.pol := rfl
@[simp] theorem regSet_arb (c : Core) (off : Nat) (v : Word) : (regSet c off v).arb = c.arb := rfl
@[simp] theorem regSet_hist (c : Core) (off : Nat) (v : Word) : (regSet c off v).hist = c.hist := rfl
@[simp] theorem regSet_log (c : Core) (off : Nat) (v : Word) : (regSet c off v).log = c.log := rfl
@[simp] theorem regSet_logSeq (c : Core) (off : Nat) (v : Word) : (regSet c off v).logSeq = c.logSeq := rfl
@[simp] theorem regSet_bkt (c : Core) (off : Nat) (v : Word) : (regSet c off v).bkt = c.bkt := rfl
@[simp] theorem regSet_flue (c : Core) (off : Nat) (v : Word) : (regSet c off v).flue = c.flue := rfl
@[simp] theorem regSet_alarmFirst (c : Core) (off : Nat) (v : Word) : (regSet c off v).alarmFirst = c.alarmFirst := rfl
@[simp] theorem regSet_keys (c : Core) (off : Nat) (v : Word) : (regSet c off v).keys = c.keys := rfl
@[simp] theorem regSet_keyNext (c : Core) (off : Nat) (v : Word) : (regSet c off v).keyNext = c.keyNext := rfl
@[simp] theorem regSet_bankSt (c : Core) (off : Nat) (v : Word) : (regSet c off v).bankSt = c.bankSt := rfl
@[simp] theorem regSet_ending (c : Core) (off : Nat) (v : Word) : (regSet c off v).ending = c.ending := rfl
@[simp] theorem regSet_reqStop (c : Core) (off : Nat) (v : Word) : (regSet c off v).reqStop = c.reqStop := rfl
@[simp] theorem regSet_urgent (c : Core) (off : Nat) (v : Word) : (regSet c off v).urgent = c.urgent := rfl
@[simp] theorem regSet_leakAt (c : Core) (off : Nat) (v : Word) : (regSet c off v).leakAt = c.leakAt := rfl
@[simp] theorem regSet_evalAt (c : Core) (off : Nat) (v : Word) : (regSet c off v).evalAt = c.evalAt := rfl
@[simp] theorem regSet_volt (c : Core) (off : Nat) (v : Word) : (regSet c off v).volt = c.volt := rfl

@[simp] theorem ctrAdd_tick (c : Core) (off w n : Nat) : (ctrAdd c off w n).tick = c.tick := rfl
@[simp] theorem ctrAdd_free (c : Core) (off w n : Nat) : (ctrAdd c off w n).free = c.free := rfl
@[simp] theorem ctrAdd_st (c : Core) (off w n : Nat) : (ctrAdd c off w n).st = c.st := rfl
@[simp] theorem ctrAdd_regs (c : Core) (off w n : Nat) : (ctrAdd c off w n).regs = c.regs := rfl
@[simp] theorem ctrAdd_flags (c : Core) (off w n : Nat) : (ctrAdd c off w n).flags = c.flags := rfl
@[simp] theorem ctrAdd_ctr (c : Core) (off w n : Nat) : (ctrAdd c off w n).ctr = mput c.ctr off ((ctrv c off + n) % 2 ^ w) := rfl
@[simp] theorem ctrAdd_rgn (c : Core) (off w n : Nat) : (ctrAdd c off w n).rgn = c.rgn := rfl
@[simp] theorem ctrAdd_cport (c : Core) (off w n : Nat) : (ctrAdd c off w n).cport = c.cport := rfl
@[simp] theorem ctrAdd_dport (c : Core) (off w n : Nat) : (ctrAdd c off w n).dport = c.dport := rfl
@[simp] theorem ctrAdd_bport (c : Core) (off w n : Nat) : (ctrAdd c off w n).bport = c.bport := rfl
@[simp] theorem ctrAdd_sport (c : Core) (off w n : Nat) : (ctrAdd c off w n).sport = c.sport := rfl
@[simp] theorem ctrAdd_gw (c : Core) (off w n : Nat) : (ctrAdd c off w n).gw = c.gw := rfl
@[simp] theorem ctrAdd_dom (c : Core) (off w n : Nat) : (ctrAdd c off w n).dom = c.dom := rfl
@[simp] theorem ctrAdd_arr (c : Core) (off w n : Nat) : (ctrAdd c off w n).arr = c.arr := rfl
@[simp] theorem ctrAdd_bearer (c : Core) (off w n : Nat) : (ctrAdd c off w n).bearer = c.bearer := rfl
@[simp] theorem ctrAdd_role (c : Core) (off w n : Nat) : (ctrAdd c off w n).role = c.role := rfl
@[simp] theorem ctrAdd_out (c : Core) (off w n : Nat) : (ctrAdd c off w n).out = c.out := rfl
@[simp] theorem ctrAdd_bundles (c : Core) (off w n : Nat) : (ctrAdd c off w n).bundles = c.bundles := rfl
@[simp] theorem ctrAdd_nextBundle (c : Core) (off w n : Nat) : (ctrAdd c off w n).nextBundle = c.nextBundle := rfl
@[simp] theorem ctrAdd_reads (c : Core) (off w n : Nat) : (ctrAdd c off w n).reads = c.reads := rfl
@[simp] theorem ctrAdd_fab (c : Core) (off w n : Nat) : (ctrAdd c off w n).fab = c.fab := rfl
@[simp] theorem ctrAdd_wire (c : Core) (off w n : Nat) : (ctrAdd c off w n).wire = c.wire := rfl
@[simp] theorem ctrAdd_fabric (c : Core) (off w n : Nat) : (ctrAdd c off w n).fabric = c.fabric := rfl
@[simp] theorem ctrAdd_pug (c : Core) (off w n : Nat) : (ctrAdd c off w n).pug = c.pug := rfl
@[simp] theorem ctrAdd_lcOff (c : Core) (off w n : Nat) : (ctrAdd c off w n).lcOff = c.lcOff := rfl
@[simp] theorem ctrAdd_lcBusy (c : Core) (off w n : Nat) : (ctrAdd c off w n).lcBusy = c.lcBusy := rfl
@[simp] theorem ctrAdd_lcReen (c : Core) (off w n : Nat) : (ctrAdd c off w n).lcReen = c.lcReen := rfl
@[simp] theorem ctrAdd_lcStop (c : Core) (off w n : Nat) : (ctrAdd c off w n).lcStop = c.lcStop := rfl
@[simp] theorem ctrAdd_trill (c : Core) (off w n : Nat) : (ctrAdd c off w n).trill = c.trill := rfl
@[simp] theorem ctrAdd_pol (c : Core) (off w n : Nat) : (ctrAdd c off w n).pol = c.pol := rfl
@[simp] theorem ctrAdd_arb (c : Core) (off w n : Nat) : (ctrAdd c off w n).arb = c.arb := rfl
@[simp] theorem ctrAdd_hist (c : Core) (off w n : Nat) : (ctrAdd c off w n).hist = c.hist := rfl
@[simp] theorem ctrAdd_log (c : Core) (off w n : Nat) : (ctrAdd c off w n).log = c.log := rfl
@[simp] theorem ctrAdd_logSeq (c : Core) (off w n : Nat) : (ctrAdd c off w n).logSeq = c.logSeq := rfl
@[simp] theorem ctrAdd_bkt (c : Core) (off w n : Nat) : (ctrAdd c off w n).bkt = c.bkt := rfl
@[simp] theorem ctrAdd_flue (c : Core) (off w n : Nat) : (ctrAdd c off w n).flue = c.flue := rfl
@[simp] theorem ctrAdd_alarmFirst (c : Core) (off w n : Nat) : (ctrAdd c off w n).alarmFirst = c.alarmFirst := rfl
@[simp] theorem ctrAdd_keys (c : Core) (off w n : Nat) : (ctrAdd c off w n).keys = c.keys := rfl
@[simp] theorem ctrAdd_keyNext (c : Core) (off w n : Nat) : (ctrAdd c off w n).keyNext = c.keyNext := rfl
@[simp] theorem ctrAdd_bankSt (c : Core) (off w n : Nat) : (ctrAdd c off w n).bankSt = c.bankSt := rfl
@[simp] theorem ctrAdd_ending (c : Core) (off w n : Nat) : (ctrAdd c off w n).ending = c.ending := rfl
@[simp] theorem ctrAdd_reqStop (c : Core) (off w n : Nat) : (ctrAdd c off w n).reqStop = c.reqStop := rfl
@[simp] theorem ctrAdd_urgent (c : Core) (off w n : Nat) : (ctrAdd c off w n).urgent = c.urgent := rfl
@[simp] theorem ctrAdd_leakAt (c : Core) (off w n : Nat) : (ctrAdd c off w n).leakAt = c.leakAt := rfl
@[simp] theorem ctrAdd_evalAt (c : Core) (off w n : Nat) : (ctrAdd c off w n).evalAt = c.evalAt := rfl
@[simp] theorem ctrAdd_volt (c : Core) (off w n : Nat) : (ctrAdd c off w n).volt = c.volt := rfl

@[simp] theorem ctrSat_tick (c : Core) (off w n : Nat) : (ctrSat c off w n).tick = c.tick := rfl
@[simp] theorem ctrSat_free (c : Core) (off w n : Nat) : (ctrSat c off w n).free = c.free := rfl
@[simp] theorem ctrSat_st (c : Core) (off w n : Nat) : (ctrSat c off w n).st = c.st := rfl
@[simp] theorem ctrSat_regs (c : Core) (off w n : Nat) : (ctrSat c off w n).regs = c.regs := rfl
@[simp] theorem ctrSat_flags (c : Core) (off w n : Nat) : (ctrSat c off w n).flags = c.flags := rfl
@[simp] theorem ctrSat_ctr (c : Core) (off w n : Nat) : (ctrSat c off w n).ctr = mput c.ctr off (satAdd (ctrv c off) n (2 ^ w - 1)) := rfl
@[simp] theorem ctrSat_rgn (c : Core) (off w n : Nat) : (ctrSat c off w n).rgn = c.rgn := rfl
@[simp] theorem ctrSat_cport (c : Core) (off w n : Nat) : (ctrSat c off w n).cport = c.cport := rfl
@[simp] theorem ctrSat_dport (c : Core) (off w n : Nat) : (ctrSat c off w n).dport = c.dport := rfl
@[simp] theorem ctrSat_bport (c : Core) (off w n : Nat) : (ctrSat c off w n).bport = c.bport := rfl
@[simp] theorem ctrSat_sport (c : Core) (off w n : Nat) : (ctrSat c off w n).sport = c.sport := rfl
@[simp] theorem ctrSat_gw (c : Core) (off w n : Nat) : (ctrSat c off w n).gw = c.gw := rfl
@[simp] theorem ctrSat_dom (c : Core) (off w n : Nat) : (ctrSat c off w n).dom = c.dom := rfl
@[simp] theorem ctrSat_arr (c : Core) (off w n : Nat) : (ctrSat c off w n).arr = c.arr := rfl
@[simp] theorem ctrSat_bearer (c : Core) (off w n : Nat) : (ctrSat c off w n).bearer = c.bearer := rfl
@[simp] theorem ctrSat_role (c : Core) (off w n : Nat) : (ctrSat c off w n).role = c.role := rfl
@[simp] theorem ctrSat_out (c : Core) (off w n : Nat) : (ctrSat c off w n).out = c.out := rfl
@[simp] theorem ctrSat_bundles (c : Core) (off w n : Nat) : (ctrSat c off w n).bundles = c.bundles := rfl
@[simp] theorem ctrSat_nextBundle (c : Core) (off w n : Nat) : (ctrSat c off w n).nextBundle = c.nextBundle := rfl
@[simp] theorem ctrSat_reads (c : Core) (off w n : Nat) : (ctrSat c off w n).reads = c.reads := rfl
@[simp] theorem ctrSat_fab (c : Core) (off w n : Nat) : (ctrSat c off w n).fab = c.fab := rfl
@[simp] theorem ctrSat_wire (c : Core) (off w n : Nat) : (ctrSat c off w n).wire = c.wire := rfl
@[simp] theorem ctrSat_fabric (c : Core) (off w n : Nat) : (ctrSat c off w n).fabric = c.fabric := rfl
@[simp] theorem ctrSat_pug (c : Core) (off w n : Nat) : (ctrSat c off w n).pug = c.pug := rfl
@[simp] theorem ctrSat_lcOff (c : Core) (off w n : Nat) : (ctrSat c off w n).lcOff = c.lcOff := rfl
@[simp] theorem ctrSat_lcBusy (c : Core) (off w n : Nat) : (ctrSat c off w n).lcBusy = c.lcBusy := rfl
@[simp] theorem ctrSat_lcReen (c : Core) (off w n : Nat) : (ctrSat c off w n).lcReen = c.lcReen := rfl
@[simp] theorem ctrSat_lcStop (c : Core) (off w n : Nat) : (ctrSat c off w n).lcStop = c.lcStop := rfl
@[simp] theorem ctrSat_trill (c : Core) (off w n : Nat) : (ctrSat c off w n).trill = c.trill := rfl
@[simp] theorem ctrSat_pol (c : Core) (off w n : Nat) : (ctrSat c off w n).pol = c.pol := rfl
@[simp] theorem ctrSat_arb (c : Core) (off w n : Nat) : (ctrSat c off w n).arb = c.arb := rfl
@[simp] theorem ctrSat_hist (c : Core) (off w n : Nat) : (ctrSat c off w n).hist = c.hist := rfl
@[simp] theorem ctrSat_log (c : Core) (off w n : Nat) : (ctrSat c off w n).log = c.log := rfl
@[simp] theorem ctrSat_logSeq (c : Core) (off w n : Nat) : (ctrSat c off w n).logSeq = c.logSeq := rfl
@[simp] theorem ctrSat_bkt (c : Core) (off w n : Nat) : (ctrSat c off w n).bkt = c.bkt := rfl
@[simp] theorem ctrSat_flue (c : Core) (off w n : Nat) : (ctrSat c off w n).flue = c.flue := rfl
@[simp] theorem ctrSat_alarmFirst (c : Core) (off w n : Nat) : (ctrSat c off w n).alarmFirst = c.alarmFirst := rfl
@[simp] theorem ctrSat_keys (c : Core) (off w n : Nat) : (ctrSat c off w n).keys = c.keys := rfl
@[simp] theorem ctrSat_keyNext (c : Core) (off w n : Nat) : (ctrSat c off w n).keyNext = c.keyNext := rfl
@[simp] theorem ctrSat_bankSt (c : Core) (off w n : Nat) : (ctrSat c off w n).bankSt = c.bankSt := rfl
@[simp] theorem ctrSat_ending (c : Core) (off w n : Nat) : (ctrSat c off w n).ending = c.ending := rfl
@[simp] theorem ctrSat_reqStop (c : Core) (off w n : Nat) : (ctrSat c off w n).reqStop = c.reqStop := rfl
@[simp] theorem ctrSat_urgent (c : Core) (off w n : Nat) : (ctrSat c off w n).urgent = c.urgent := rfl
@[simp] theorem ctrSat_leakAt (c : Core) (off w n : Nat) : (ctrSat c off w n).leakAt = c.leakAt := rfl
@[simp] theorem ctrSat_evalAt (c : Core) (off w n : Nat) : (ctrSat c off w n).evalAt = c.evalAt := rfl
@[simp] theorem ctrSat_volt (c : Core) (off w n : Nat) : (ctrSat c off w n).volt = c.volt := rfl

@[simp] theorem ctrSet_tick (c : Core) (off n : Nat) : (ctrSet c off n).tick = c.tick := rfl
@[simp] theorem ctrSet_free (c : Core) (off n : Nat) : (ctrSet c off n).free = c.free := rfl
@[simp] theorem ctrSet_st (c : Core) (off n : Nat) : (ctrSet c off n).st = c.st := rfl
@[simp] theorem ctrSet_regs (c : Core) (off n : Nat) : (ctrSet c off n).regs = c.regs := rfl
@[simp] theorem ctrSet_flags (c : Core) (off n : Nat) : (ctrSet c off n).flags = c.flags := rfl
@[simp] theorem ctrSet_ctr (c : Core) (off n : Nat) : (ctrSet c off n).ctr = mput c.ctr off n := rfl
@[simp] theorem ctrSet_rgn (c : Core) (off n : Nat) : (ctrSet c off n).rgn = c.rgn := rfl
@[simp] theorem ctrSet_cport (c : Core) (off n : Nat) : (ctrSet c off n).cport = c.cport := rfl
@[simp] theorem ctrSet_dport (c : Core) (off n : Nat) : (ctrSet c off n).dport = c.dport := rfl
@[simp] theorem ctrSet_bport (c : Core) (off n : Nat) : (ctrSet c off n).bport = c.bport := rfl
@[simp] theorem ctrSet_sport (c : Core) (off n : Nat) : (ctrSet c off n).sport = c.sport := rfl
@[simp] theorem ctrSet_gw (c : Core) (off n : Nat) : (ctrSet c off n).gw = c.gw := rfl
@[simp] theorem ctrSet_dom (c : Core) (off n : Nat) : (ctrSet c off n).dom = c.dom := rfl
@[simp] theorem ctrSet_arr (c : Core) (off n : Nat) : (ctrSet c off n).arr = c.arr := rfl
@[simp] theorem ctrSet_bearer (c : Core) (off n : Nat) : (ctrSet c off n).bearer = c.bearer := rfl
@[simp] theorem ctrSet_role (c : Core) (off n : Nat) : (ctrSet c off n).role = c.role := rfl
@[simp] theorem ctrSet_out (c : Core) (off n : Nat) : (ctrSet c off n).out = c.out := rfl
@[simp] theorem ctrSet_bundles (c : Core) (off n : Nat) : (ctrSet c off n).bundles = c.bundles := rfl
@[simp] theorem ctrSet_nextBundle (c : Core) (off n : Nat) : (ctrSet c off n).nextBundle = c.nextBundle := rfl
@[simp] theorem ctrSet_reads (c : Core) (off n : Nat) : (ctrSet c off n).reads = c.reads := rfl
@[simp] theorem ctrSet_fab (c : Core) (off n : Nat) : (ctrSet c off n).fab = c.fab := rfl
@[simp] theorem ctrSet_wire (c : Core) (off n : Nat) : (ctrSet c off n).wire = c.wire := rfl
@[simp] theorem ctrSet_fabric (c : Core) (off n : Nat) : (ctrSet c off n).fabric = c.fabric := rfl
@[simp] theorem ctrSet_pug (c : Core) (off n : Nat) : (ctrSet c off n).pug = c.pug := rfl
@[simp] theorem ctrSet_lcOff (c : Core) (off n : Nat) : (ctrSet c off n).lcOff = c.lcOff := rfl
@[simp] theorem ctrSet_lcBusy (c : Core) (off n : Nat) : (ctrSet c off n).lcBusy = c.lcBusy := rfl
@[simp] theorem ctrSet_lcReen (c : Core) (off n : Nat) : (ctrSet c off n).lcReen = c.lcReen := rfl
@[simp] theorem ctrSet_lcStop (c : Core) (off n : Nat) : (ctrSet c off n).lcStop = c.lcStop := rfl
@[simp] theorem ctrSet_trill (c : Core) (off n : Nat) : (ctrSet c off n).trill = c.trill := rfl
@[simp] theorem ctrSet_pol (c : Core) (off n : Nat) : (ctrSet c off n).pol = c.pol := rfl
@[simp] theorem ctrSet_arb (c : Core) (off n : Nat) : (ctrSet c off n).arb = c.arb := rfl
@[simp] theorem ctrSet_hist (c : Core) (off n : Nat) : (ctrSet c off n).hist = c.hist := rfl
@[simp] theorem ctrSet_log (c : Core) (off n : Nat) : (ctrSet c off n).log = c.log := rfl
@[simp] theorem ctrSet_logSeq (c : Core) (off n : Nat) : (ctrSet c off n).logSeq = c.logSeq := rfl
@[simp] theorem ctrSet_bkt (c : Core) (off n : Nat) : (ctrSet c off n).bkt = c.bkt := rfl
@[simp] theorem ctrSet_flue (c : Core) (off n : Nat) : (ctrSet c off n).flue = c.flue := rfl
@[simp] theorem ctrSet_alarmFirst (c : Core) (off n : Nat) : (ctrSet c off n).alarmFirst = c.alarmFirst := rfl
@[simp] theorem ctrSet_keys (c : Core) (off n : Nat) : (ctrSet c off n).keys = c.keys := rfl
@[simp] theorem ctrSet_keyNext (c : Core) (off n : Nat) : (ctrSet c off n).keyNext = c.keyNext := rfl
@[simp] theorem ctrSet_bankSt (c : Core) (off n : Nat) : (ctrSet c off n).bankSt = c.bankSt := rfl
@[simp] theorem ctrSet_ending (c : Core) (off n : Nat) : (ctrSet c off n).ending = c.ending := rfl
@[simp] theorem ctrSet_reqStop (c : Core) (off n : Nat) : (ctrSet c off n).reqStop = c.reqStop := rfl
@[simp] theorem ctrSet_urgent (c : Core) (off n : Nat) : (ctrSet c off n).urgent = c.urgent := rfl
@[simp] theorem ctrSet_leakAt (c : Core) (off n : Nat) : (ctrSet c off n).leakAt = c.leakAt := rfl
@[simp] theorem ctrSet_evalAt (c : Core) (off n : Nat) : (ctrSet c off n).evalAt = c.evalAt := rfl
@[simp] theorem ctrSet_volt (c : Core) (off n : Nat) : (ctrSet c off n).volt = c.volt := rfl

@[simp] theorem hwSet_tick (c : Core) (off b : Nat) : (hwSet c off b).tick = c.tick := rfl
@[simp] theorem hwSet_free (c : Core) (off b : Nat) : (hwSet c off b).free = c.free := rfl
@[simp] theorem hwSet_st (c : Core) (off b : Nat) : (hwSet c off b).st = c.st := rfl
@[simp] theorem hwSet_regs (c : Core) (off b : Nat) : (hwSet c off b).regs = c.regs := rfl
@[simp] theorem hwSet_flags (c : Core) (off b : Nat) : (hwSet c off b).flags = flagSet c.flags (now c) off b := rfl
@[simp] theorem hwSet_ctr (c : Core) (off b : Nat) : (hwSet c off b).ctr = c.ctr := rfl
@[simp] theorem hwSet_rgn (c : Core) (off b : Nat) : (hwSet c off b).rgn = c.rgn := rfl
@[simp] theorem hwSet_cport (c : Core) (off b : Nat) : (hwSet c off b).cport = c.cport := rfl
@[simp] theorem hwSet_dport (c : Core) (off b : Nat) : (hwSet c off b).dport = c.dport := rfl
@[simp] theorem hwSet_bport (c : Core) (off b : Nat) : (hwSet c off b).bport = c.bport := rfl
@[simp] theorem hwSet_sport (c : Core) (off b : Nat) : (hwSet c off b).sport = c.sport := rfl
@[simp] theorem hwSet_gw (c : Core) (off b : Nat) : (hwSet c off b).gw = c.gw := rfl
@[simp] theorem hwSet_dom (c : Core) (off b : Nat) : (hwSet c off b).dom = c.dom := rfl
@[simp] theorem hwSet_arr (c : Core) (off b : Nat) : (hwSet c off b).arr = c.arr := rfl
@[simp] theorem hwSet_bearer (c : Core) (off b : Nat) : (hwSet c off b).bearer = c.bearer := rfl
@[simp] theorem hwSet_role (c : Core) (off b : Nat) : (hwSet c off b).role = c.role := rfl
@[simp] theorem hwSet_out (c : Core) (off b : Nat) : (hwSet c off b).out = c.out := rfl
@[simp] theorem hwSet_bundles (c : Core) (off b : Nat) : (hwSet c off b).bundles = c.bundles := rfl
@[simp] theorem hwSet_nextBundle (c : Core) (off b : Nat) : (hwSet c off b).nextBundle = c.nextBundle := rfl
@[simp] theorem hwSet_reads (c : Core) (off b : Nat) : (hwSet c off b).reads = c.reads := rfl
@[simp] theorem hwSet_fab (c : Core) (off b : Nat) : (hwSet c off b).fab = c.fab := rfl
@[simp] theorem hwSet_wire (c : Core) (off b : Nat) : (hwSet c off b).wire = c.wire := rfl
@[simp] theorem hwSet_fabric (c : Core) (off b : Nat) : (hwSet c off b).fabric = c.fabric := rfl
@[simp] theorem hwSet_pug (c : Core) (off b : Nat) : (hwSet c off b).pug = c.pug := rfl
@[simp] theorem hwSet_lcOff (c : Core) (off b : Nat) : (hwSet c off b).lcOff = c.lcOff := rfl
@[simp] theorem hwSet_lcBusy (c : Core) (off b : Nat) : (hwSet c off b).lcBusy = c.lcBusy := rfl
@[simp] theorem hwSet_lcReen (c : Core) (off b : Nat) : (hwSet c off b).lcReen = c.lcReen := rfl
@[simp] theorem hwSet_lcStop (c : Core) (off b : Nat) : (hwSet c off b).lcStop = c.lcStop := rfl
@[simp] theorem hwSet_trill (c : Core) (off b : Nat) : (hwSet c off b).trill = c.trill := rfl
@[simp] theorem hwSet_pol (c : Core) (off b : Nat) : (hwSet c off b).pol = c.pol := rfl
@[simp] theorem hwSet_arb (c : Core) (off b : Nat) : (hwSet c off b).arb = c.arb := rfl
@[simp] theorem hwSet_hist (c : Core) (off b : Nat) : (hwSet c off b).hist = c.hist := rfl
@[simp] theorem hwSet_log (c : Core) (off b : Nat) : (hwSet c off b).log = c.log := rfl
@[simp] theorem hwSet_logSeq (c : Core) (off b : Nat) : (hwSet c off b).logSeq = c.logSeq := rfl
@[simp] theorem hwSet_bkt (c : Core) (off b : Nat) : (hwSet c off b).bkt = c.bkt := rfl
@[simp] theorem hwSet_flue (c : Core) (off b : Nat) : (hwSet c off b).flue = c.flue := rfl
@[simp] theorem hwSet_alarmFirst (c : Core) (off b : Nat) : (hwSet c off b).alarmFirst = c.alarmFirst := rfl
@[simp] theorem hwSet_keys (c : Core) (off b : Nat) : (hwSet c off b).keys = c.keys := rfl
@[simp] theorem hwSet_keyNext (c : Core) (off b : Nat) : (hwSet c off b).keyNext = c.keyNext := rfl
@[simp] theorem hwSet_bankSt (c : Core) (off b : Nat) : (hwSet c off b).bankSt = c.bankSt := rfl
@[simp] theorem hwSet_ending (c : Core) (off b : Nat) : (hwSet c off b).ending = c.ending := rfl
@[simp] theorem hwSet_reqStop (c : Core) (off b : Nat) : (hwSet c off b).reqStop = c.reqStop := rfl
@[simp] theorem hwSet_urgent (c : Core) (off b : Nat) : (hwSet c off b).urgent = c.urgent := rfl
@[simp] theorem hwSet_leakAt (c : Core) (off b : Nat) : (hwSet c off b).leakAt = c.leakAt := rfl
@[simp] theorem hwSet_evalAt (c : Core) (off b : Nat) : (hwSet c off b).evalAt = c.evalAt := rfl
@[simp] theorem hwSet_volt (c : Core) (off b : Nat) : (hwSet c off b).volt = c.volt := rfl

@[simp] theorem swClr_tick (c : Core) (off b : Nat) : (swClr c off b).tick = c.tick := rfl
@[simp] theorem swClr_free (c : Core) (off b : Nat) : (swClr c off b).free = c.free := rfl
@[simp] theorem swClr_st (c : Core) (off b : Nat) : (swClr c off b).st = c.st := rfl
@[simp] theorem swClr_regs (c : Core) (off b : Nat) : (swClr c off b).regs = c.regs := rfl
@[simp] theorem swClr_flags (c : Core) (off b : Nat) : (swClr c off b).flags = flagClr c.flags (now c) off b := rfl
@[simp] theorem swClr_ctr (c : Core) (off b : Nat) : (swClr c off b).ctr = c.ctr := rfl
@[simp] theorem swClr_rgn (c : Core) (off b : Nat) : (swClr c off b).rgn = c.rgn := rfl
@[simp] theorem swClr_cport (c : Core) (off b : Nat) : (swClr c off b).cport = c.cport := rfl
@[simp] theorem swClr_dport (c : Core) (off b : Nat) : (swClr c off b).dport = c.dport := rfl
@[simp] theorem swClr_bport (c : Core) (off b : Nat) : (swClr c off b).bport = c.bport := rfl
@[simp] theorem swClr_sport (c : Core) (off b : Nat) : (swClr c off b).sport = c.sport := rfl
@[simp] theorem swClr_gw (c : Core) (off b : Nat) : (swClr c off b).gw = c.gw := rfl
@[simp] theorem swClr_dom (c : Core) (off b : Nat) : (swClr c off b).dom = c.dom := rfl
@[simp] theorem swClr_arr (c : Core) (off b : Nat) : (swClr c off b).arr = c.arr := rfl
@[simp] theorem swClr_bearer (c : Core) (off b : Nat) : (swClr c off b).bearer = c.bearer := rfl
@[simp] theorem swClr_role (c : Core) (off b : Nat) : (swClr c off b).role = c.role := rfl
@[simp] theorem swClr_out (c : Core) (off b : Nat) : (swClr c off b).out = c.out := rfl
@[simp] theorem swClr_bundles (c : Core) (off b : Nat) : (swClr c off b).bundles = c.bundles := rfl
@[simp] theorem swClr_nextBundle (c : Core) (off b : Nat) : (swClr c off b).nextBundle = c.nextBundle := rfl
@[simp] theorem swClr_reads (c : Core) (off b : Nat) : (swClr c off b).reads = c.reads := rfl
@[simp] theorem swClr_fab (c : Core) (off b : Nat) : (swClr c off b).fab = c.fab := rfl
@[simp] theorem swClr_wire (c : Core) (off b : Nat) : (swClr c off b).wire = c.wire := rfl
@[simp] theorem swClr_fabric (c : Core) (off b : Nat) : (swClr c off b).fabric = c.fabric := rfl
@[simp] theorem swClr_pug (c : Core) (off b : Nat) : (swClr c off b).pug = c.pug := rfl
@[simp] theorem swClr_lcOff (c : Core) (off b : Nat) : (swClr c off b).lcOff = c.lcOff := rfl
@[simp] theorem swClr_lcBusy (c : Core) (off b : Nat) : (swClr c off b).lcBusy = c.lcBusy := rfl
@[simp] theorem swClr_lcReen (c : Core) (off b : Nat) : (swClr c off b).lcReen = c.lcReen := rfl
@[simp] theorem swClr_lcStop (c : Core) (off b : Nat) : (swClr c off b).lcStop = c.lcStop := rfl
@[simp] theorem swClr_trill (c : Core) (off b : Nat) : (swClr c off b).trill = c.trill := rfl
@[simp] theorem swClr_pol (c : Core) (off b : Nat) : (swClr c off b).pol = c.pol := rfl
@[simp] theorem swClr_arb (c : Core) (off b : Nat) : (swClr c off b).arb = c.arb := rfl
@[simp] theorem swClr_hist (c : Core) (off b : Nat) : (swClr c off b).hist = c.hist := rfl
@[simp] theorem swClr_log (c : Core) (off b : Nat) : (swClr c off b).log = c.log := rfl
@[simp] theorem swClr_logSeq (c : Core) (off b : Nat) : (swClr c off b).logSeq = c.logSeq := rfl
@[simp] theorem swClr_bkt (c : Core) (off b : Nat) : (swClr c off b).bkt = c.bkt := rfl
@[simp] theorem swClr_flue (c : Core) (off b : Nat) : (swClr c off b).flue = c.flue := rfl
@[simp] theorem swClr_alarmFirst (c : Core) (off b : Nat) : (swClr c off b).alarmFirst = c.alarmFirst := rfl
@[simp] theorem swClr_keys (c : Core) (off b : Nat) : (swClr c off b).keys = c.keys := rfl
@[simp] theorem swClr_keyNext (c : Core) (off b : Nat) : (swClr c off b).keyNext = c.keyNext := rfl
@[simp] theorem swClr_bankSt (c : Core) (off b : Nat) : (swClr c off b).bankSt = c.bankSt := rfl
@[simp] theorem swClr_ending (c : Core) (off b : Nat) : (swClr c off b).ending = c.ending := rfl
@[simp] theorem swClr_reqStop (c : Core) (off b : Nat) : (swClr c off b).reqStop = c.reqStop := rfl
@[simp] theorem swClr_urgent (c : Core) (off b : Nat) : (swClr c off b).urgent = c.urgent := rfl
@[simp] theorem swClr_leakAt (c : Core) (off b : Nat) : (swClr c off b).leakAt = c.leakAt := rfl
@[simp] theorem swClr_evalAt (c : Core) (off b : Nat) : (swClr c off b).evalAt = c.evalAt := rfl
@[simp] theorem swClr_volt (c : Core) (off b : Nat) : (swClr c off b).volt = c.volt := rfl

@[simp] theorem ring_tick (c : Core) (i b : Nat) : (ring c i b).tick = c.tick := rfl
@[simp] theorem ring_free (c : Core) (i b : Nat) : (ring c i b).free = c.free := rfl
@[simp] theorem ring_st (c : Core) (i b : Nat) : (ring c i b).st = c.st := rfl
@[simp] theorem ring_regs (c : Core) (i b : Nat) : (ring c i b).regs = c.regs := rfl
@[simp] theorem ring_ctr (c : Core) (i b : Nat) : (ring c i b).ctr = c.ctr := rfl
@[simp] theorem ring_rgn (c : Core) (i b : Nat) : (ring c i b).rgn = c.rgn := rfl
@[simp] theorem ring_cport (c : Core) (i b : Nat) : (ring c i b).cport = c.cport := rfl
@[simp] theorem ring_dport (c : Core) (i b : Nat) : (ring c i b).dport = c.dport := rfl
@[simp] theorem ring_bport (c : Core) (i b : Nat) : (ring c i b).bport = c.bport := rfl
@[simp] theorem ring_sport (c : Core) (i b : Nat) : (ring c i b).sport = c.sport := rfl
@[simp] theorem ring_gw (c : Core) (i b : Nat) : (ring c i b).gw = c.gw := rfl
@[simp] theorem ring_dom (c : Core) (i b : Nat) : (ring c i b).dom = c.dom := rfl
@[simp] theorem ring_arr (c : Core) (i b : Nat) : (ring c i b).arr = c.arr := rfl
@[simp] theorem ring_bearer (c : Core) (i b : Nat) : (ring c i b).bearer = c.bearer := rfl
@[simp] theorem ring_role (c : Core) (i b : Nat) : (ring c i b).role = c.role := rfl
@[simp] theorem ring_out (c : Core) (i b : Nat) : (ring c i b).out = c.out := rfl
@[simp] theorem ring_bundles (c : Core) (i b : Nat) : (ring c i b).bundles = c.bundles := rfl
@[simp] theorem ring_nextBundle (c : Core) (i b : Nat) : (ring c i b).nextBundle = c.nextBundle := rfl
@[simp] theorem ring_reads (c : Core) (i b : Nat) : (ring c i b).reads = c.reads := rfl
@[simp] theorem ring_fab (c : Core) (i b : Nat) : (ring c i b).fab = c.fab := rfl
@[simp] theorem ring_wire (c : Core) (i b : Nat) : (ring c i b).wire = c.wire := rfl
@[simp] theorem ring_fabric (c : Core) (i b : Nat) : (ring c i b).fabric = c.fabric := rfl
@[simp] theorem ring_pug (c : Core) (i b : Nat) : (ring c i b).pug = c.pug := rfl
@[simp] theorem ring_lcOff (c : Core) (i b : Nat) : (ring c i b).lcOff = c.lcOff := rfl
@[simp] theorem ring_lcBusy (c : Core) (i b : Nat) : (ring c i b).lcBusy = c.lcBusy := rfl
@[simp] theorem ring_lcReen (c : Core) (i b : Nat) : (ring c i b).lcReen = c.lcReen := rfl
@[simp] theorem ring_lcStop (c : Core) (i b : Nat) : (ring c i b).lcStop = c.lcStop := rfl
@[simp] theorem ring_trill (c : Core) (i b : Nat) : (ring c i b).trill = c.trill := rfl
@[simp] theorem ring_pol (c : Core) (i b : Nat) : (ring c i b).pol = c.pol := rfl
@[simp] theorem ring_arb (c : Core) (i b : Nat) : (ring c i b).arb = c.arb := rfl
@[simp] theorem ring_hist (c : Core) (i b : Nat) : (ring c i b).hist = c.hist := rfl
@[simp] theorem ring_log (c : Core) (i b : Nat) : (ring c i b).log = c.log := rfl
@[simp] theorem ring_logSeq (c : Core) (i b : Nat) : (ring c i b).logSeq = c.logSeq := rfl
@[simp] theorem ring_bkt (c : Core) (i b : Nat) : (ring c i b).bkt = c.bkt := rfl
@[simp] theorem ring_flue (c : Core) (i b : Nat) : (ring c i b).flue = c.flue := rfl
@[simp] theorem ring_alarmFirst (c : Core) (i b : Nat) : (ring c i b).alarmFirst = c.alarmFirst := rfl
@[simp] theorem ring_keys (c : Core) (i b : Nat) : (ring c i b).keys = c.keys := rfl
@[simp] theorem ring_keyNext (c : Core) (i b : Nat) : (ring c i b).keyNext = c.keyNext := rfl
@[simp] theorem ring_bankSt (c : Core) (i b : Nat) : (ring c i b).bankSt = c.bankSt := rfl
@[simp] theorem ring_ending (c : Core) (i b : Nat) : (ring c i b).ending = c.ending := rfl
@[simp] theorem ring_reqStop (c : Core) (i b : Nat) : (ring c i b).reqStop = c.reqStop := rfl
@[simp] theorem ring_urgent (c : Core) (i b : Nat) : (ring c i b).urgent = c.urgent := rfl
@[simp] theorem ring_leakAt (c : Core) (i b : Nat) : (ring c i b).leakAt = c.leakAt := rfl
@[simp] theorem ring_evalAt (c : Core) (i b : Nat) : (ring c i b).evalAt = c.evalAt := rfl
@[simp] theorem ring_volt (c : Core) (i b : Nat) : (ring c i b).volt = c.volt := rfl

@[simp] theorem ringRouted_tick (c : Core) (b : Nat) : (ringRouted c b).tick = c.tick := rfl
@[simp] theorem ringRouted_free (c : Core) (b : Nat) : (ringRouted c b).free = c.free := rfl
@[simp] theorem ringRouted_st (c : Core) (b : Nat) : (ringRouted c b).st = c.st := rfl
@[simp] theorem ringRouted_regs (c : Core) (b : Nat) : (ringRouted c b).regs = c.regs := rfl
@[simp] theorem ringRouted_ctr (c : Core) (b : Nat) : (ringRouted c b).ctr = c.ctr := rfl
@[simp] theorem ringRouted_rgn (c : Core) (b : Nat) : (ringRouted c b).rgn = c.rgn := rfl
@[simp] theorem ringRouted_cport (c : Core) (b : Nat) : (ringRouted c b).cport = c.cport := rfl
@[simp] theorem ringRouted_dport (c : Core) (b : Nat) : (ringRouted c b).dport = c.dport := rfl
@[simp] theorem ringRouted_bport (c : Core) (b : Nat) : (ringRouted c b).bport = c.bport := rfl
@[simp] theorem ringRouted_sport (c : Core) (b : Nat) : (ringRouted c b).sport = c.sport := rfl
@[simp] theorem ringRouted_gw (c : Core) (b : Nat) : (ringRouted c b).gw = c.gw := rfl
@[simp] theorem ringRouted_dom (c : Core) (b : Nat) : (ringRouted c b).dom = c.dom := rfl
@[simp] theorem ringRouted_arr (c : Core) (b : Nat) : (ringRouted c b).arr = c.arr := rfl
@[simp] theorem ringRouted_bearer (c : Core) (b : Nat) : (ringRouted c b).bearer = c.bearer := rfl
@[simp] theorem ringRouted_role (c : Core) (b : Nat) : (ringRouted c b).role = c.role := rfl
@[simp] theorem ringRouted_out (c : Core) (b : Nat) : (ringRouted c b).out = c.out := rfl
@[simp] theorem ringRouted_bundles (c : Core) (b : Nat) : (ringRouted c b).bundles = c.bundles := rfl
@[simp] theorem ringRouted_nextBundle (c : Core) (b : Nat) : (ringRouted c b).nextBundle = c.nextBundle := rfl
@[simp] theorem ringRouted_reads (c : Core) (b : Nat) : (ringRouted c b).reads = c.reads := rfl
@[simp] theorem ringRouted_fab (c : Core) (b : Nat) : (ringRouted c b).fab = c.fab := rfl
@[simp] theorem ringRouted_wire (c : Core) (b : Nat) : (ringRouted c b).wire = c.wire := rfl
@[simp] theorem ringRouted_fabric (c : Core) (b : Nat) : (ringRouted c b).fabric = c.fabric := rfl
@[simp] theorem ringRouted_pug (c : Core) (b : Nat) : (ringRouted c b).pug = c.pug := rfl
@[simp] theorem ringRouted_lcOff (c : Core) (b : Nat) : (ringRouted c b).lcOff = c.lcOff := rfl
@[simp] theorem ringRouted_lcBusy (c : Core) (b : Nat) : (ringRouted c b).lcBusy = c.lcBusy := rfl
@[simp] theorem ringRouted_lcReen (c : Core) (b : Nat) : (ringRouted c b).lcReen = c.lcReen := rfl
@[simp] theorem ringRouted_lcStop (c : Core) (b : Nat) : (ringRouted c b).lcStop = c.lcStop := rfl
@[simp] theorem ringRouted_trill (c : Core) (b : Nat) : (ringRouted c b).trill = c.trill := rfl
@[simp] theorem ringRouted_pol (c : Core) (b : Nat) : (ringRouted c b).pol = c.pol := rfl
@[simp] theorem ringRouted_arb (c : Core) (b : Nat) : (ringRouted c b).arb = c.arb := rfl
@[simp] theorem ringRouted_hist (c : Core) (b : Nat) : (ringRouted c b).hist = c.hist := rfl
@[simp] theorem ringRouted_log (c : Core) (b : Nat) : (ringRouted c b).log = c.log := rfl
@[simp] theorem ringRouted_logSeq (c : Core) (b : Nat) : (ringRouted c b).logSeq = c.logSeq := rfl
@[simp] theorem ringRouted_bkt (c : Core) (b : Nat) : (ringRouted c b).bkt = c.bkt := rfl
@[simp] theorem ringRouted_flue (c : Core) (b : Nat) : (ringRouted c b).flue = c.flue := rfl
@[simp] theorem ringRouted_alarmFirst (c : Core) (b : Nat) : (ringRouted c b).alarmFirst = c.alarmFirst := rfl
@[simp] theorem ringRouted_keys (c : Core) (b : Nat) : (ringRouted c b).keys = c.keys := rfl
@[simp] theorem ringRouted_keyNext (c : Core) (b : Nat) : (ringRouted c b).keyNext = c.keyNext := rfl
@[simp] theorem ringRouted_bankSt (c : Core) (b : Nat) : (ringRouted c b).bankSt = c.bankSt := rfl
@[simp] theorem ringRouted_ending (c : Core) (b : Nat) : (ringRouted c b).ending = c.ending := rfl
@[simp] theorem ringRouted_reqStop (c : Core) (b : Nat) : (ringRouted c b).reqStop = c.reqStop := rfl
@[simp] theorem ringRouted_urgent (c : Core) (b : Nat) : (ringRouted c b).urgent = c.urgent := rfl
@[simp] theorem ringRouted_leakAt (c : Core) (b : Nat) : (ringRouted c b).leakAt = c.leakAt := rfl
@[simp] theorem ringRouted_evalAt (c : Core) (b : Nat) : (ringRouted c b).evalAt = c.evalAt := rfl
@[simp] theorem ringRouted_volt (c : Core) (b : Nat) : (ringRouted c b).volt = c.volt := rfl

@[simp] theorem domMod_tick (c : Core) (f : Domain → Domain) : (domMod c f).tick = c.tick := rfl
@[simp] theorem domMod_free (c : Core) (f : Domain → Domain) : (domMod c f).free = c.free := rfl
@[simp] theorem domMod_st (c : Core) (f : Domain → Domain) : (domMod c f).st = c.st := rfl
@[simp] theorem domMod_regs (c : Core) (f : Domain → Domain) : (domMod c f).regs = c.regs := rfl
@[simp] theorem domMod_flags (c : Core) (f : Domain → Domain) : (domMod c f).flags = c.flags := rfl
@[simp] theorem domMod_ctr (c : Core) (f : Domain → Domain) : (domMod c f).ctr = c.ctr := rfl
@[simp] theorem domMod_rgn (c : Core) (f : Domain → Domain) : (domMod c f).rgn = c.rgn := rfl
@[simp] theorem domMod_cport (c : Core) (f : Domain → Domain) : (domMod c f).cport = c.cport := rfl
@[simp] theorem domMod_dport (c : Core) (f : Domain → Domain) : (domMod c f).dport = c.dport := rfl
@[simp] theorem domMod_bport (c : Core) (f : Domain → Domain) : (domMod c f).bport = c.bport := rfl
@[simp] theorem domMod_sport (c : Core) (f : Domain → Domain) : (domMod c f).sport = c.sport := rfl
@[simp] theorem domMod_gw (c : Core) (f : Domain → Domain) : (domMod c f).gw = c.gw := rfl
@[simp] theorem domMod_dom (c : Core) (f : Domain → Domain) : (domMod c f).dom = f c.dom := rfl
@[simp] theorem domMod_arr (c : Core) (f : Domain → Domain) : (domMod c f).arr = c.arr := rfl
@[simp] theorem domMod_bearer (c : Core) (f : Domain → Domain) : (domMod c f).bearer = c.bearer := rfl
@[simp] theorem domMod_role (c : Core) (f : Domain → Domain) : (domMod c f).role = c.role := rfl
@[simp] theorem domMod_out (c : Core) (f : Domain → Domain) : (domMod c f).out = c.out := rfl
@[simp] theorem domMod_bundles (c : Core) (f : Domain → Domain) : (domMod c f).bundles = c.bundles := rfl
@[simp] theorem domMod_nextBundle (c : Core) (f : Domain → Domain) : (domMod c f).nextBundle = c.nextBundle := rfl
@[simp] theorem domMod_reads (c : Core) (f : Domain → Domain) : (domMod c f).reads = c.reads := rfl
@[simp] theorem domMod_fab (c : Core) (f : Domain → Domain) : (domMod c f).fab = c.fab := rfl
@[simp] theorem domMod_wire (c : Core) (f : Domain → Domain) : (domMod c f).wire = c.wire := rfl
@[simp] theorem domMod_fabric (c : Core) (f : Domain → Domain) : (domMod c f).fabric = c.fabric := rfl
@[simp] theorem domMod_pug (c : Core) (f : Domain → Domain) : (domMod c f).pug = c.pug := rfl
@[simp] theorem domMod_lcOff (c : Core) (f : Domain → Domain) : (domMod c f).lcOff = c.lcOff := rfl
@[simp] theorem domMod_lcBusy (c : Core) (f : Domain → Domain) : (domMod c f).lcBusy = c.lcBusy := rfl
@[simp] theorem domMod_lcReen (c : Core) (f : Domain → Domain) : (domMod c f).lcReen = c.lcReen := rfl
@[simp] theorem domMod_lcStop (c : Core) (f : Domain → Domain) : (domMod c f).lcStop = c.lcStop := rfl
@[simp] theorem domMod_trill (c : Core) (f : Domain → Domain) : (domMod c f).trill = c.trill := rfl
@[simp] theorem domMod_pol (c : Core) (f : Domain → Domain) : (domMod c f).pol = c.pol := rfl
@[simp] theorem domMod_arb (c : Core) (f : Domain → Domain) : (domMod c f).arb = c.arb := rfl
@[simp] theorem domMod_hist (c : Core) (f : Domain → Domain) : (domMod c f).hist = c.hist := rfl
@[simp] theorem domMod_log (c : Core) (f : Domain → Domain) : (domMod c f).log = c.log := rfl
@[simp] theorem domMod_logSeq (c : Core) (f : Domain → Domain) : (domMod c f).logSeq = c.logSeq := rfl
@[simp] theorem domMod_bkt (c : Core) (f : Domain → Domain) : (domMod c f).bkt = c.bkt := rfl
@[simp] theorem domMod_flue (c : Core) (f : Domain → Domain) : (domMod c f).flue = c.flue := rfl
@[simp] theorem domMod_alarmFirst (c : Core) (f : Domain → Domain) : (domMod c f).alarmFirst = c.alarmFirst := rfl
@[simp] theorem domMod_keys (c : Core) (f : Domain → Domain) : (domMod c f).keys = c.keys := rfl
@[simp] theorem domMod_keyNext (c : Core) (f : Domain → Domain) : (domMod c f).keyNext = c.keyNext := rfl
@[simp] theorem domMod_bankSt (c : Core) (f : Domain → Domain) : (domMod c f).bankSt = c.bankSt := rfl
@[simp] theorem domMod_ending (c : Core) (f : Domain → Domain) : (domMod c f).ending = c.ending := rfl
@[simp] theorem domMod_reqStop (c : Core) (f : Domain → Domain) : (domMod c f).reqStop = c.reqStop := rfl
@[simp] theorem domMod_urgent (c : Core) (f : Domain → Domain) : (domMod c f).urgent = c.urgent := rfl
@[simp] theorem domMod_leakAt (c : Core) (f : Domain → Domain) : (domMod c f).leakAt = c.leakAt := rfl
@[simp] theorem domMod_evalAt (c : Core) (f : Domain → Domain) : (domMod c f).evalAt = c.evalAt := rfl
@[simp] theorem domMod_volt (c : Core) (f : Domain → Domain) : (domMod c f).volt = c.volt := rfl

@[simp] theorem cpMod_tick (c : Core) (p : Nat) (f : CPort → CPort) : (cpMod c p f).tick = c.tick := rfl
@[simp] theorem cpMod_free (c : Core) (p : Nat) (f : CPort → CPort) : (cpMod c p f).free = c.free := rfl
@[simp] theorem cpMod_st (c : Core) (p : Nat) (f : CPort → CPort) : (cpMod c p f).st = c.st := rfl
@[simp] theorem cpMod_regs (c : Core) (p : Nat) (f : CPort → CPort) : (cpMod c p f).regs = c.regs := rfl
@[simp] theorem cpMod_flags (c : Core) (p : Nat) (f : CPort → CPort) : (cpMod c p f).flags = c.flags := rfl
@[simp] theorem cpMod_ctr (c : Core) (p : Nat) (f : CPort → CPort) : (cpMod c p f).ctr = c.ctr := rfl
@[simp] theorem cpMod_rgn (c : Core) (p : Nat) (f : CPort → CPort) : (cpMod c p f).rgn = c.rgn := rfl
@[simp] theorem cpMod_cport (c : Core) (p : Nat) (f : CPort → CPort) : (cpMod c p f).cport = mmod c.cport p {} f := rfl
@[simp] theorem cpMod_dport (c : Core) (p : Nat) (f : CPort → CPort) : (cpMod c p f).dport = c.dport := rfl
@[simp] theorem cpMod_bport (c : Core) (p : Nat) (f : CPort → CPort) : (cpMod c p f).bport = c.bport := rfl
@[simp] theorem cpMod_sport (c : Core) (p : Nat) (f : CPort → CPort) : (cpMod c p f).sport = c.sport := rfl
@[simp] theorem cpMod_gw (c : Core) (p : Nat) (f : CPort → CPort) : (cpMod c p f).gw = c.gw := rfl
@[simp] theorem cpMod_dom (c : Core) (p : Nat) (f : CPort → CPort) : (cpMod c p f).dom = c.dom := rfl
@[simp] theorem cpMod_arr (c : Core) (p : Nat) (f : CPort → CPort) : (cpMod c p f).arr = c.arr := rfl
@[simp] theorem cpMod_bearer (c : Core) (p : Nat) (f : CPort → CPort) : (cpMod c p f).bearer = c.bearer := rfl
@[simp] theorem cpMod_role (c : Core) (p : Nat) (f : CPort → CPort) : (cpMod c p f).role = c.role := rfl
@[simp] theorem cpMod_out (c : Core) (p : Nat) (f : CPort → CPort) : (cpMod c p f).out = c.out := rfl
@[simp] theorem cpMod_bundles (c : Core) (p : Nat) (f : CPort → CPort) : (cpMod c p f).bundles = c.bundles := rfl
@[simp] theorem cpMod_nextBundle (c : Core) (p : Nat) (f : CPort → CPort) : (cpMod c p f).nextBundle = c.nextBundle := rfl
@[simp] theorem cpMod_reads (c : Core) (p : Nat) (f : CPort → CPort) : (cpMod c p f).reads = c.reads := rfl
@[simp] theorem cpMod_fab (c : Core) (p : Nat) (f : CPort → CPort) : (cpMod c p f).fab = c.fab := rfl
@[simp] theorem cpMod_wire (c : Core) (p : Nat) (f : CPort → CPort) : (cpMod c p f).wire = c.wire := rfl
@[simp] theorem cpMod_fabric (c : Core) (p : Nat) (f : CPort → CPort) : (cpMod c p f).fabric = c.fabric := rfl
@[simp] theorem cpMod_pug (c : Core) (p : Nat) (f : CPort → CPort) : (cpMod c p f).pug = c.pug := rfl
@[simp] theorem cpMod_lcOff (c : Core) (p : Nat) (f : CPort → CPort) : (cpMod c p f).lcOff = c.lcOff := rfl
@[simp] theorem cpMod_lcBusy (c : Core) (p : Nat) (f : CPort → CPort) : (cpMod c p f).lcBusy = c.lcBusy := rfl
@[simp] theorem cpMod_lcReen (c : Core) (p : Nat) (f : CPort → CPort) : (cpMod c p f).lcReen = c.lcReen := rfl
@[simp] theorem cpMod_lcStop (c : Core) (p : Nat) (f : CPort → CPort) : (cpMod c p f).lcStop = c.lcStop := rfl
@[simp] theorem cpMod_trill (c : Core) (p : Nat) (f : CPort → CPort) : (cpMod c p f).trill = c.trill := rfl
@[simp] theorem cpMod_pol (c : Core) (p : Nat) (f : CPort → CPort) : (cpMod c p f).pol = c.pol := rfl
@[simp] theorem cpMod_arb (c : Core) (p : Nat) (f : CPort → CPort) : (cpMod c p f).arb = c.arb := rfl
@[simp] theorem cpMod_hist (c : Core) (p : Nat) (f : CPort → CPort) : (cpMod c p f).hist = c.hist := rfl
@[simp] theorem cpMod_log (c : Core) (p : Nat) (f : CPort → CPort) : (cpMod c p f).log = c.log := rfl
@[simp] theorem cpMod_logSeq (c : Core) (p : Nat) (f : CPort → CPort) : (cpMod c p f).logSeq = c.logSeq := rfl
@[simp] theorem cpMod_bkt (c : Core) (p : Nat) (f : CPort → CPort) : (cpMod c p f).bkt = c.bkt := rfl
@[simp] theorem cpMod_flue (c : Core) (p : Nat) (f : CPort → CPort) : (cpMod c p f).flue = c.flue := rfl
@[simp] theorem cpMod_alarmFirst (c : Core) (p : Nat) (f : CPort → CPort) : (cpMod c p f).alarmFirst = c.alarmFirst := rfl
@[simp] theorem cpMod_keys (c : Core) (p : Nat) (f : CPort → CPort) : (cpMod c p f).keys = c.keys := rfl
@[simp] theorem cpMod_keyNext (c : Core) (p : Nat) (f : CPort → CPort) : (cpMod c p f).keyNext = c.keyNext := rfl
@[simp] theorem cpMod_bankSt (c : Core) (p : Nat) (f : CPort → CPort) : (cpMod c p f).bankSt = c.bankSt := rfl
@[simp] theorem cpMod_ending (c : Core) (p : Nat) (f : CPort → CPort) : (cpMod c p f).ending = c.ending := rfl
@[simp] theorem cpMod_reqStop (c : Core) (p : Nat) (f : CPort → CPort) : (cpMod c p f).reqStop = c.reqStop := rfl
@[simp] theorem cpMod_urgent (c : Core) (p : Nat) (f : CPort → CPort) : (cpMod c p f).urgent = c.urgent := rfl
@[simp] theorem cpMod_leakAt (c : Core) (p : Nat) (f : CPort → CPort) : (cpMod c p f).leakAt = c.leakAt := rfl
@[simp] theorem cpMod_evalAt (c : Core) (p : Nat) (f : CPort → CPort) : (cpMod c p f).evalAt = c.evalAt := rfl
@[simp] theorem cpMod_volt (c : Core) (p : Nat) (f : CPort → CPort) : (cpMod c p f).volt = c.volt := rfl

@[simp] theorem dpMod_tick (c : Core) (d : Nat) (f : DPort → DPort) : (dpMod c d f).tick = c.tick := rfl
@[simp] theorem dpMod_free (c : Core) (d : Nat) (f : DPort → DPort) : (dpMod c d f).free = c.free := rfl
@[simp] theorem dpMod_st (c : Core) (d : Nat) (f : DPort → DPort) : (dpMod c d f).st = c.st := rfl
@[simp] theorem dpMod_regs (c : Core) (d : Nat) (f : DPort → DPort) : (dpMod c d f).regs = c.regs := rfl
@[simp] theorem dpMod_flags (c : Core) (d : Nat) (f : DPort → DPort) : (dpMod c d f).flags = c.flags := rfl
@[simp] theorem dpMod_ctr (c : Core) (d : Nat) (f : DPort → DPort) : (dpMod c d f).ctr = c.ctr := rfl
@[simp] theorem dpMod_rgn (c : Core) (d : Nat) (f : DPort → DPort) : (dpMod c d f).rgn = c.rgn := rfl
@[simp] theorem dpMod_cport (c : Core) (d : Nat) (f : DPort → DPort) : (dpMod c d f).cport = c.cport := rfl
@[simp] theorem dpMod_dport (c : Core) (d : Nat) (f : DPort → DPort) : (dpMod c d f).dport = mmod c.dport d {} f := rfl
@[simp] theorem dpMod_bport (c : Core) (d : Nat) (f : DPort → DPort) : (dpMod c d f).bport = c.bport := rfl
@[simp] theorem dpMod_sport (c : Core) (d : Nat) (f : DPort → DPort) : (dpMod c d f).sport = c.sport := rfl
@[simp] theorem dpMod_gw (c : Core) (d : Nat) (f : DPort → DPort) : (dpMod c d f).gw = c.gw := rfl
@[simp] theorem dpMod_dom (c : Core) (d : Nat) (f : DPort → DPort) : (dpMod c d f).dom = c.dom := rfl
@[simp] theorem dpMod_arr (c : Core) (d : Nat) (f : DPort → DPort) : (dpMod c d f).arr = c.arr := rfl
@[simp] theorem dpMod_bearer (c : Core) (d : Nat) (f : DPort → DPort) : (dpMod c d f).bearer = c.bearer := rfl
@[simp] theorem dpMod_role (c : Core) (d : Nat) (f : DPort → DPort) : (dpMod c d f).role = c.role := rfl
@[simp] theorem dpMod_out (c : Core) (d : Nat) (f : DPort → DPort) : (dpMod c d f).out = c.out := rfl
@[simp] theorem dpMod_bundles (c : Core) (d : Nat) (f : DPort → DPort) : (dpMod c d f).bundles = c.bundles := rfl
@[simp] theorem dpMod_nextBundle (c : Core) (d : Nat) (f : DPort → DPort) : (dpMod c d f).nextBundle = c.nextBundle := rfl
@[simp] theorem dpMod_reads (c : Core) (d : Nat) (f : DPort → DPort) : (dpMod c d f).reads = c.reads := rfl
@[simp] theorem dpMod_fab (c : Core) (d : Nat) (f : DPort → DPort) : (dpMod c d f).fab = c.fab := rfl
@[simp] theorem dpMod_wire (c : Core) (d : Nat) (f : DPort → DPort) : (dpMod c d f).wire = c.wire := rfl
@[simp] theorem dpMod_fabric (c : Core) (d : Nat) (f : DPort → DPort) : (dpMod c d f).fabric = c.fabric := rfl
@[simp] theorem dpMod_pug (c : Core) (d : Nat) (f : DPort → DPort) : (dpMod c d f).pug = c.pug := rfl
@[simp] theorem dpMod_lcOff (c : Core) (d : Nat) (f : DPort → DPort) : (dpMod c d f).lcOff = c.lcOff := rfl
@[simp] theorem dpMod_lcBusy (c : Core) (d : Nat) (f : DPort → DPort) : (dpMod c d f).lcBusy = c.lcBusy := rfl
@[simp] theorem dpMod_lcReen (c : Core) (d : Nat) (f : DPort → DPort) : (dpMod c d f).lcReen = c.lcReen := rfl
@[simp] theorem dpMod_lcStop (c : Core) (d : Nat) (f : DPort → DPort) : (dpMod c d f).lcStop = c.lcStop := rfl
@[simp] theorem dpMod_trill (c : Core) (d : Nat) (f : DPort → DPort) : (dpMod c d f).trill = c.trill := rfl
@[simp] theorem dpMod_pol (c : Core) (d : Nat) (f : DPort → DPort) : (dpMod c d f).pol = c.pol := rfl
@[simp] theorem dpMod_arb (c : Core) (d : Nat) (f : DPort → DPort) : (dpMod c d f).arb = c.arb := rfl
@[simp] theorem dpMod_hist (c : Core) (d : Nat) (f : DPort → DPort) : (dpMod c d f).hist = c.hist := rfl
@[simp] theorem dpMod_log (c : Core) (d : Nat) (f : DPort → DPort) : (dpMod c d f).log = c.log := rfl
@[simp] theorem dpMod_logSeq (c : Core) (d : Nat) (f : DPort → DPort) : (dpMod c d f).logSeq = c.logSeq := rfl
@[simp] theorem dpMod_bkt (c : Core) (d : Nat) (f : DPort → DPort) : (dpMod c d f).bkt = c.bkt := rfl
@[simp] theorem dpMod_flue (c : Core) (d : Nat) (f : DPort → DPort) : (dpMod c d f).flue = c.flue := rfl
@[simp] theorem dpMod_alarmFirst (c : Core) (d : Nat) (f : DPort → DPort) : (dpMod c d f).alarmFirst = c.alarmFirst := rfl
@[simp] theorem dpMod_keys (c : Core) (d : Nat) (f : DPort → DPort) : (dpMod c d f).keys = c.keys := rfl
@[simp] theorem dpMod_keyNext (c : Core) (d : Nat) (f : DPort → DPort) : (dpMod c d f).keyNext = c.keyNext := rfl
@[simp] theorem dpMod_bankSt (c : Core) (d : Nat) (f : DPort → DPort) : (dpMod c d f).bankSt = c.bankSt := rfl
@[simp] theorem dpMod_ending (c : Core) (d : Nat) (f : DPort → DPort) : (dpMod c d f).ending = c.ending := rfl
@[simp] theorem dpMod_reqStop (c : Core) (d : Nat) (f : DPort → DPort) : (dpMod c d f).reqStop = c.reqStop := rfl
@[simp] theorem dpMod_urgent (c : Core) (d : Nat) (f : DPort → DPort) : (dpMod c d f).urgent = c.urgent := rfl
@[simp] theorem dpMod_leakAt (c : Core) (d : Nat) (f : DPort → DPort) : (dpMod c d f).leakAt = c.leakAt := rfl
@[simp] theorem dpMod_evalAt (c : Core) (d : Nat) (f : DPort → DPort) : (dpMod c d f).evalAt = c.evalAt := rfl
@[simp] theorem dpMod_volt (c : Core) (d : Nat) (f : DPort → DPort) : (dpMod c d f).volt = c.volt := rfl

@[simp] theorem bpMod_tick (c : Core) (b : Nat) (f : BPort → BPort) : (bpMod c b f).tick = c.tick := rfl
@[simp] theorem bpMod_free (c : Core) (b : Nat) (f : BPort → BPort) : (bpMod c b f).free = c.free := rfl
@[simp] theorem bpMod_st (c : Core) (b : Nat) (f : BPort → BPort) : (bpMod c b f).st = c.st := rfl
@[simp] theorem bpMod_regs (c : Core) (b : Nat) (f : BPort → BPort) : (bpMod c b f).regs = c.regs := rfl
@[simp] theorem bpMod_flags (c : Core) (b : Nat) (f : BPort → BPort) : (bpMod c b f).flags = c.flags := rfl
@[simp] theorem bpMod_ctr (c : Core) (b : Nat) (f : BPort → BPort) : (bpMod c b f).ctr = c.ctr := rfl
@[simp] theorem bpMod_rgn (c : Core) (b : Nat) (f : BPort → BPort) : (bpMod c b f).rgn = c.rgn := rfl
@[simp] theorem bpMod_cport (c : Core) (b : Nat) (f : BPort → BPort) : (bpMod c b f).cport = c.cport := rfl
@[simp] theorem bpMod_dport (c : Core) (b : Nat) (f : BPort → BPort) : (bpMod c b f).dport = c.dport := rfl
@[simp] theorem bpMod_bport (c : Core) (b : Nat) (f : BPort → BPort) : (bpMod c b f).bport = mmod c.bport b {} f := rfl
@[simp] theorem bpMod_sport (c : Core) (b : Nat) (f : BPort → BPort) : (bpMod c b f).sport = c.sport := rfl
@[simp] theorem bpMod_gw (c : Core) (b : Nat) (f : BPort → BPort) : (bpMod c b f).gw = c.gw := rfl
@[simp] theorem bpMod_dom (c : Core) (b : Nat) (f : BPort → BPort) : (bpMod c b f).dom = c.dom := rfl
@[simp] theorem bpMod_arr (c : Core) (b : Nat) (f : BPort → BPort) : (bpMod c b f).arr = c.arr := rfl
@[simp] theorem bpMod_bearer (c : Core) (b : Nat) (f : BPort → BPort) : (bpMod c b f).bearer = c.bearer := rfl
@[simp] theorem bpMod_role (c : Core) (b : Nat) (f : BPort → BPort) : (bpMod c b f).role = c.role := rfl
@[simp] theorem bpMod_out (c : Core) (b : Nat) (f : BPort → BPort) : (bpMod c b f).out = c.out := rfl
@[simp] theorem bpMod_bundles (c : Core) (b : Nat) (f : BPort → BPort) : (bpMod c b f).bundles = c.bundles := rfl
@[simp] theorem bpMod_nextBundle (c : Core) (b : Nat) (f : BPort → BPort) : (bpMod c b f).nextBundle = c.nextBundle := rfl
@[simp] theorem bpMod_reads (c : Core) (b : Nat) (f : BPort → BPort) : (bpMod c b f).reads = c.reads := rfl
@[simp] theorem bpMod_fab (c : Core) (b : Nat) (f : BPort → BPort) : (bpMod c b f).fab = c.fab := rfl
@[simp] theorem bpMod_wire (c : Core) (b : Nat) (f : BPort → BPort) : (bpMod c b f).wire = c.wire := rfl
@[simp] theorem bpMod_fabric (c : Core) (b : Nat) (f : BPort → BPort) : (bpMod c b f).fabric = c.fabric := rfl
@[simp] theorem bpMod_pug (c : Core) (b : Nat) (f : BPort → BPort) : (bpMod c b f).pug = c.pug := rfl
@[simp] theorem bpMod_lcOff (c : Core) (b : Nat) (f : BPort → BPort) : (bpMod c b f).lcOff = c.lcOff := rfl
@[simp] theorem bpMod_lcBusy (c : Core) (b : Nat) (f : BPort → BPort) : (bpMod c b f).lcBusy = c.lcBusy := rfl
@[simp] theorem bpMod_lcReen (c : Core) (b : Nat) (f : BPort → BPort) : (bpMod c b f).lcReen = c.lcReen := rfl
@[simp] theorem bpMod_lcStop (c : Core) (b : Nat) (f : BPort → BPort) : (bpMod c b f).lcStop = c.lcStop := rfl
@[simp] theorem bpMod_trill (c : Core) (b : Nat) (f : BPort → BPort) : (bpMod c b f).trill = c.trill := rfl
@[simp] theorem bpMod_pol (c : Core) (b : Nat) (f : BPort → BPort) : (bpMod c b f).pol = c.pol := rfl
@[simp] theorem bpMod_arb (c : Core) (b : Nat) (f : BPort → BPort) : (bpMod c b f).arb = c.arb := rfl
@[simp] theorem bpMod_hist (c : Core) (b : Nat) (f : BPort → BPort) : (bpMod c b f).hist = c.hist := rfl
@[simp] theorem bpMod_log (c : Core) (b : Nat) (f : BPort → BPort) : (bpMod c b f).log = c.log := rfl
@[simp] theorem bpMod_logSeq (c : Core) (b : Nat) (f : BPort → BPort) : (bpMod c b f).logSeq = c.logSeq := rfl
@[simp] theorem bpMod_bkt (c : Core) (b : Nat) (f : BPort → BPort) : (bpMod c b f).bkt = c.bkt := rfl
@[simp] theorem bpMod_flue (c : Core) (b : Nat) (f : BPort → BPort) : (bpMod c b f).flue = c.flue := rfl
@[simp] theorem bpMod_alarmFirst (c : Core) (b : Nat) (f : BPort → BPort) : (bpMod c b f).alarmFirst = c.alarmFirst := rfl
@[simp] theorem bpMod_keys (c : Core) (b : Nat) (f : BPort → BPort) : (bpMod c b f).keys = c.keys := rfl
@[simp] theorem bpMod_keyNext (c : Core) (b : Nat) (f : BPort → BPort) : (bpMod c b f).keyNext = c.keyNext := rfl
@[simp] theorem bpMod_bankSt (c : Core) (b : Nat) (f : BPort → BPort) : (bpMod c b f).bankSt = c.bankSt := rfl
@[simp] theorem bpMod_ending (c : Core) (b : Nat) (f : BPort → BPort) : (bpMod c b f).ending = c.ending := rfl
@[simp] theorem bpMod_reqStop (c : Core) (b : Nat) (f : BPort → BPort) : (bpMod c b f).reqStop = c.reqStop := rfl
@[simp] theorem bpMod_urgent (c : Core) (b : Nat) (f : BPort → BPort) : (bpMod c b f).urgent = c.urgent := rfl
@[simp] theorem bpMod_leakAt (c : Core) (b : Nat) (f : BPort → BPort) : (bpMod c b f).leakAt = c.leakAt := rfl
@[simp] theorem bpMod_evalAt (c : Core) (b : Nat) (f : BPort → BPort) : (bpMod c b f).evalAt = c.evalAt := rfl
@[simp] theorem bpMod_volt (c : Core) (b : Nat) (f : BPort → BPort) : (bpMod c b f).volt = c.volt := rfl

@[simp] theorem spMod_tick (c : Core) (n : Nat) (f : SPort → SPort) : (spMod c n f).tick = c.tick := rfl
@[simp] theorem spMod_free (c : Core) (n : Nat) (f : SPort → SPort) : (spMod c n f).free = c.free := rfl
@[simp] theorem spMod_st (c : Core) (n : Nat) (f : SPort → SPort) : (spMod c n f).st = c.st := rfl
@[simp] theorem spMod_regs (c : Core) (n : Nat) (f : SPort → SPort) : (spMod c n f).regs = c.regs := rfl
@[simp] theorem spMod_flags (c : Core) (n : Nat) (f : SPort → SPort) : (spMod c n f).flags = c.flags := rfl
@[simp] theorem spMod_ctr (c : Core) (n : Nat) (f : SPort → SPort) : (spMod c n f).ctr = c.ctr := rfl
@[simp] theorem spMod_rgn (c : Core) (n : Nat) (f : SPort → SPort) : (spMod c n f).rgn = c.rgn := rfl
@[simp] theorem spMod_cport (c : Core) (n : Nat) (f : SPort → SPort) : (spMod c n f).cport = c.cport := rfl
@[simp] theorem spMod_dport (c : Core) (n : Nat) (f : SPort → SPort) : (spMod c n f).dport = c.dport := rfl
@[simp] theorem spMod_bport (c : Core) (n : Nat) (f : SPort → SPort) : (spMod c n f).bport = c.bport := rfl
@[simp] theorem spMod_sport (c : Core) (n : Nat) (f : SPort → SPort) : (spMod c n f).sport = mmod c.sport n {} f := rfl
@[simp] theorem spMod_gw (c : Core) (n : Nat) (f : SPort → SPort) : (spMod c n f).gw = c.gw := rfl
@[simp] theorem spMod_dom (c : Core) (n : Nat) (f : SPort → SPort) : (spMod c n f).dom = c.dom := rfl
@[simp] theorem spMod_arr (c : Core) (n : Nat) (f : SPort → SPort) : (spMod c n f).arr = c.arr := rfl
@[simp] theorem spMod_bearer (c : Core) (n : Nat) (f : SPort → SPort) : (spMod c n f).bearer = c.bearer := rfl
@[simp] theorem spMod_role (c : Core) (n : Nat) (f : SPort → SPort) : (spMod c n f).role = c.role := rfl
@[simp] theorem spMod_out (c : Core) (n : Nat) (f : SPort → SPort) : (spMod c n f).out = c.out := rfl
@[simp] theorem spMod_bundles (c : Core) (n : Nat) (f : SPort → SPort) : (spMod c n f).bundles = c.bundles := rfl
@[simp] theorem spMod_nextBundle (c : Core) (n : Nat) (f : SPort → SPort) : (spMod c n f).nextBundle = c.nextBundle := rfl
@[simp] theorem spMod_reads (c : Core) (n : Nat) (f : SPort → SPort) : (spMod c n f).reads = c.reads := rfl
@[simp] theorem spMod_fab (c : Core) (n : Nat) (f : SPort → SPort) : (spMod c n f).fab = c.fab := rfl
@[simp] theorem spMod_wire (c : Core) (n : Nat) (f : SPort → SPort) : (spMod c n f).wire = c.wire := rfl
@[simp] theorem spMod_fabric (c : Core) (n : Nat) (f : SPort → SPort) : (spMod c n f).fabric = c.fabric := rfl
@[simp] theorem spMod_pug (c : Core) (n : Nat) (f : SPort → SPort) : (spMod c n f).pug = c.pug := rfl
@[simp] theorem spMod_lcOff (c : Core) (n : Nat) (f : SPort → SPort) : (spMod c n f).lcOff = c.lcOff := rfl
@[simp] theorem spMod_lcBusy (c : Core) (n : Nat) (f : SPort → SPort) : (spMod c n f).lcBusy = c.lcBusy := rfl
@[simp] theorem spMod_lcReen (c : Core) (n : Nat) (f : SPort → SPort) : (spMod c n f).lcReen = c.lcReen := rfl
@[simp] theorem spMod_lcStop (c : Core) (n : Nat) (f : SPort → SPort) : (spMod c n f).lcStop = c.lcStop := rfl
@[simp] theorem spMod_trill (c : Core) (n : Nat) (f : SPort → SPort) : (spMod c n f).trill = c.trill := rfl
@[simp] theorem spMod_pol (c : Core) (n : Nat) (f : SPort → SPort) : (spMod c n f).pol = c.pol := rfl
@[simp] theorem spMod_arb (c : Core) (n : Nat) (f : SPort → SPort) : (spMod c n f).arb = c.arb := rfl
@[simp] theorem spMod_hist (c : Core) (n : Nat) (f : SPort → SPort) : (spMod c n f).hist = c.hist := rfl
@[simp] theorem spMod_log (c : Core) (n : Nat) (f : SPort → SPort) : (spMod c n f).log = c.log := rfl
@[simp] theorem spMod_logSeq (c : Core) (n : Nat) (f : SPort → SPort) : (spMod c n f).logSeq = c.logSeq := rfl
@[simp] theorem spMod_bkt (c : Core) (n : Nat) (f : SPort → SPort) : (spMod c n f).bkt = c.bkt := rfl
@[simp] theorem spMod_flue (c : Core) (n : Nat) (f : SPort → SPort) : (spMod c n f).flue = c.flue := rfl
@[simp] theorem spMod_alarmFirst (c : Core) (n : Nat) (f : SPort → SPort) : (spMod c n f).alarmFirst = c.alarmFirst := rfl
@[simp] theorem spMod_keys (c : Core) (n : Nat) (f : SPort → SPort) : (spMod c n f).keys = c.keys := rfl
@[simp] theorem spMod_keyNext (c : Core) (n : Nat) (f : SPort → SPort) : (spMod c n f).keyNext = c.keyNext := rfl
@[simp] theorem spMod_bankSt (c : Core) (n : Nat) (f : SPort → SPort) : (spMod c n f).bankSt = c.bankSt := rfl
@[simp] theorem spMod_ending (c : Core) (n : Nat) (f : SPort → SPort) : (spMod c n f).ending = c.ending := rfl
@[simp] theorem spMod_reqStop (c : Core) (n : Nat) (f : SPort → SPort) : (spMod c n f).reqStop = c.reqStop := rfl
@[simp] theorem spMod_urgent (c : Core) (n : Nat) (f : SPort → SPort) : (spMod c n f).urgent = c.urgent := rfl
@[simp] theorem spMod_leakAt (c : Core) (n : Nat) (f : SPort → SPort) : (spMod c n f).leakAt = c.leakAt := rfl
@[simp] theorem spMod_evalAt (c : Core) (n : Nat) (f : SPort → SPort) : (spMod c n f).evalAt = c.evalAt := rfl
@[simp] theorem spMod_volt (c : Core) (n : Nat) (f : SPort → SPort) : (spMod c n f).volt = c.volt := rfl

@[simp] theorem gwMod_tick (c : Core) (k : Nat) (f : Gateway → Gateway) : (gwMod c k f).tick = c.tick := rfl
@[simp] theorem gwMod_free (c : Core) (k : Nat) (f : Gateway → Gateway) : (gwMod c k f).free = c.free := rfl
@[simp] theorem gwMod_st (c : Core) (k : Nat) (f : Gateway → Gateway) : (gwMod c k f).st = c.st := rfl
@[simp] theorem gwMod_regs (c : Core) (k : Nat) (f : Gateway → Gateway) : (gwMod c k f).regs = c.regs := rfl
@[simp] theorem gwMod_flags (c : Core) (k : Nat) (f : Gateway → Gateway) : (gwMod c k f).flags = c.flags := rfl
@[simp] theorem gwMod_ctr (c : Core) (k : Nat) (f : Gateway → Gateway) : (gwMod c k f).ctr = c.ctr := rfl
@[simp] theorem gwMod_rgn (c : Core) (k : Nat) (f : Gateway → Gateway) : (gwMod c k f).rgn = c.rgn := rfl
@[simp] theorem gwMod_cport (c : Core) (k : Nat) (f : Gateway → Gateway) : (gwMod c k f).cport = c.cport := rfl
@[simp] theorem gwMod_dport (c : Core) (k : Nat) (f : Gateway → Gateway) : (gwMod c k f).dport = c.dport := rfl
@[simp] theorem gwMod_bport (c : Core) (k : Nat) (f : Gateway → Gateway) : (gwMod c k f).bport = c.bport := rfl
@[simp] theorem gwMod_sport (c : Core) (k : Nat) (f : Gateway → Gateway) : (gwMod c k f).sport = c.sport := rfl
@[simp] theorem gwMod_gw (c : Core) (k : Nat) (f : Gateway → Gateway) : (gwMod c k f).gw = mmod c.gw k {} f := rfl
@[simp] theorem gwMod_dom (c : Core) (k : Nat) (f : Gateway → Gateway) : (gwMod c k f).dom = c.dom := rfl
@[simp] theorem gwMod_arr (c : Core) (k : Nat) (f : Gateway → Gateway) : (gwMod c k f).arr = c.arr := rfl
@[simp] theorem gwMod_bearer (c : Core) (k : Nat) (f : Gateway → Gateway) : (gwMod c k f).bearer = c.bearer := rfl
@[simp] theorem gwMod_role (c : Core) (k : Nat) (f : Gateway → Gateway) : (gwMod c k f).role = c.role := rfl
@[simp] theorem gwMod_out (c : Core) (k : Nat) (f : Gateway → Gateway) : (gwMod c k f).out = c.out := rfl
@[simp] theorem gwMod_bundles (c : Core) (k : Nat) (f : Gateway → Gateway) : (gwMod c k f).bundles = c.bundles := rfl
@[simp] theorem gwMod_nextBundle (c : Core) (k : Nat) (f : Gateway → Gateway) : (gwMod c k f).nextBundle = c.nextBundle := rfl
@[simp] theorem gwMod_reads (c : Core) (k : Nat) (f : Gateway → Gateway) : (gwMod c k f).reads = c.reads := rfl
@[simp] theorem gwMod_fab (c : Core) (k : Nat) (f : Gateway → Gateway) : (gwMod c k f).fab = c.fab := rfl
@[simp] theorem gwMod_wire (c : Core) (k : Nat) (f : Gateway → Gateway) : (gwMod c k f).wire = c.wire := rfl
@[simp] theorem gwMod_fabric (c : Core) (k : Nat) (f : Gateway → Gateway) : (gwMod c k f).fabric = c.fabric := rfl
@[simp] theorem gwMod_pug (c : Core) (k : Nat) (f : Gateway → Gateway) : (gwMod c k f).pug = c.pug := rfl
@[simp] theorem gwMod_lcOff (c : Core) (k : Nat) (f : Gateway → Gateway) : (gwMod c k f).lcOff = c.lcOff := rfl
@[simp] theorem gwMod_lcBusy (c : Core) (k : Nat) (f : Gateway → Gateway) : (gwMod c k f).lcBusy = c.lcBusy := rfl
@[simp] theorem gwMod_lcReen (c : Core) (k : Nat) (f : Gateway → Gateway) : (gwMod c k f).lcReen = c.lcReen := rfl
@[simp] theorem gwMod_lcStop (c : Core) (k : Nat) (f : Gateway → Gateway) : (gwMod c k f).lcStop = c.lcStop := rfl
@[simp] theorem gwMod_trill (c : Core) (k : Nat) (f : Gateway → Gateway) : (gwMod c k f).trill = c.trill := rfl
@[simp] theorem gwMod_pol (c : Core) (k : Nat) (f : Gateway → Gateway) : (gwMod c k f).pol = c.pol := rfl
@[simp] theorem gwMod_arb (c : Core) (k : Nat) (f : Gateway → Gateway) : (gwMod c k f).arb = c.arb := rfl
@[simp] theorem gwMod_hist (c : Core) (k : Nat) (f : Gateway → Gateway) : (gwMod c k f).hist = c.hist := rfl
@[simp] theorem gwMod_log (c : Core) (k : Nat) (f : Gateway → Gateway) : (gwMod c k f).log = c.log := rfl
@[simp] theorem gwMod_logSeq (c : Core) (k : Nat) (f : Gateway → Gateway) : (gwMod c k f).logSeq = c.logSeq := rfl
@[simp] theorem gwMod_bkt (c : Core) (k : Nat) (f : Gateway → Gateway) : (gwMod c k f).bkt = c.bkt := rfl
@[simp] theorem gwMod_flue (c : Core) (k : Nat) (f : Gateway → Gateway) : (gwMod c k f).flue = c.flue := rfl
@[simp] theorem gwMod_alarmFirst (c : Core) (k : Nat) (f : Gateway → Gateway) : (gwMod c k f).alarmFirst = c.alarmFirst := rfl
@[simp] theorem gwMod_keys (c : Core) (k : Nat) (f : Gateway → Gateway) : (gwMod c k f).keys = c.keys := rfl
@[simp] theorem gwMod_keyNext (c : Core) (k : Nat) (f : Gateway → Gateway) : (gwMod c k f).keyNext = c.keyNext := rfl
@[simp] theorem gwMod_bankSt (c : Core) (k : Nat) (f : Gateway → Gateway) : (gwMod c k f).bankSt = c.bankSt := rfl
@[simp] theorem gwMod_ending (c : Core) (k : Nat) (f : Gateway → Gateway) : (gwMod c k f).ending = c.ending := rfl
@[simp] theorem gwMod_reqStop (c : Core) (k : Nat) (f : Gateway → Gateway) : (gwMod c k f).reqStop = c.reqStop := rfl
@[simp] theorem gwMod_urgent (c : Core) (k : Nat) (f : Gateway → Gateway) : (gwMod c k f).urgent = c.urgent := rfl
@[simp] theorem gwMod_leakAt (c : Core) (k : Nat) (f : Gateway → Gateway) : (gwMod c k f).leakAt = c.leakAt := rfl
@[simp] theorem gwMod_evalAt (c : Core) (k : Nat) (f : Gateway → Gateway) : (gwMod c k f).evalAt = c.evalAt := rfl
@[simp] theorem gwMod_volt (c : Core) (k : Nat) (f : Gateway → Gateway) : (gwMod c k f).volt = c.volt := rfl

@[simp] theorem bunMod_tick (c : Core) (id : Nat) (f : Bundle → Bundle) : (bunMod c id f).tick = c.tick := rfl
@[simp] theorem bunMod_free (c : Core) (id : Nat) (f : Bundle → Bundle) : (bunMod c id f).free = c.free := rfl
@[simp] theorem bunMod_st (c : Core) (id : Nat) (f : Bundle → Bundle) : (bunMod c id f).st = c.st := rfl
@[simp] theorem bunMod_regs (c : Core) (id : Nat) (f : Bundle → Bundle) : (bunMod c id f).regs = c.regs := rfl
@[simp] theorem bunMod_flags (c : Core) (id : Nat) (f : Bundle → Bundle) : (bunMod c id f).flags = c.flags := rfl
@[simp] theorem bunMod_ctr (c : Core) (id : Nat) (f : Bundle → Bundle) : (bunMod c id f).ctr = c.ctr := rfl
@[simp] theorem bunMod_rgn (c : Core) (id : Nat) (f : Bundle → Bundle) : (bunMod c id f).rgn = c.rgn := rfl
@[simp] theorem bunMod_cport (c : Core) (id : Nat) (f : Bundle → Bundle) : (bunMod c id f).cport = c.cport := rfl
@[simp] theorem bunMod_dport (c : Core) (id : Nat) (f : Bundle → Bundle) : (bunMod c id f).dport = c.dport := rfl
@[simp] theorem bunMod_bport (c : Core) (id : Nat) (f : Bundle → Bundle) : (bunMod c id f).bport = c.bport := rfl
@[simp] theorem bunMod_sport (c : Core) (id : Nat) (f : Bundle → Bundle) : (bunMod c id f).sport = c.sport := rfl
@[simp] theorem bunMod_gw (c : Core) (id : Nat) (f : Bundle → Bundle) : (bunMod c id f).gw = c.gw := rfl
@[simp] theorem bunMod_dom (c : Core) (id : Nat) (f : Bundle → Bundle) : (bunMod c id f).dom = c.dom := rfl
@[simp] theorem bunMod_arr (c : Core) (id : Nat) (f : Bundle → Bundle) : (bunMod c id f).arr = c.arr := rfl
@[simp] theorem bunMod_bearer (c : Core) (id : Nat) (f : Bundle → Bundle) : (bunMod c id f).bearer = c.bearer := rfl
@[simp] theorem bunMod_role (c : Core) (id : Nat) (f : Bundle → Bundle) : (bunMod c id f).role = c.role := rfl
@[simp] theorem bunMod_out (c : Core) (id : Nat) (f : Bundle → Bundle) : (bunMod c id f).out = c.out := rfl
@[simp] theorem bunMod_nextBundle (c : Core) (id : Nat) (f : Bundle → Bundle) : (bunMod c id f).nextBundle = c.nextBundle := rfl
@[simp] theorem bunMod_reads (c : Core) (id : Nat) (f : Bundle → Bundle) : (bunMod c id f).reads = c.reads := rfl
@[simp] theorem bunMod_fab (c : Core) (id : Nat) (f : Bundle → Bundle) : (bunMod c id f).fab = c.fab := rfl
@[simp] theorem bunMod_wire (c : Core) (id : Nat) (f : Bundle → Bundle) : (bunMod c id f).wire = c.wire := rfl
@[simp] theorem bunMod_fabric (c : Core) (id : Nat) (f : Bundle → Bundle) : (bunMod c id f).fabric = c.fabric := rfl
@[simp] theorem bunMod_pug (c : Core) (id : Nat) (f : Bundle → Bundle) : (bunMod c id f).pug = c.pug := rfl
@[simp] theorem bunMod_lcOff (c : Core) (id : Nat) (f : Bundle → Bundle) : (bunMod c id f).lcOff = c.lcOff := rfl
@[simp] theorem bunMod_lcBusy (c : Core) (id : Nat) (f : Bundle → Bundle) : (bunMod c id f).lcBusy = c.lcBusy := rfl
@[simp] theorem bunMod_lcReen (c : Core) (id : Nat) (f : Bundle → Bundle) : (bunMod c id f).lcReen = c.lcReen := rfl
@[simp] theorem bunMod_lcStop (c : Core) (id : Nat) (f : Bundle → Bundle) : (bunMod c id f).lcStop = c.lcStop := rfl
@[simp] theorem bunMod_trill (c : Core) (id : Nat) (f : Bundle → Bundle) : (bunMod c id f).trill = c.trill := rfl
@[simp] theorem bunMod_pol (c : Core) (id : Nat) (f : Bundle → Bundle) : (bunMod c id f).pol = c.pol := rfl
@[simp] theorem bunMod_arb (c : Core) (id : Nat) (f : Bundle → Bundle) : (bunMod c id f).arb = c.arb := rfl
@[simp] theorem bunMod_hist (c : Core) (id : Nat) (f : Bundle → Bundle) : (bunMod c id f).hist = c.hist := rfl
@[simp] theorem bunMod_log (c : Core) (id : Nat) (f : Bundle → Bundle) : (bunMod c id f).log = c.log := rfl
@[simp] theorem bunMod_logSeq (c : Core) (id : Nat) (f : Bundle → Bundle) : (bunMod c id f).logSeq = c.logSeq := rfl
@[simp] theorem bunMod_bkt (c : Core) (id : Nat) (f : Bundle → Bundle) : (bunMod c id f).bkt = c.bkt := rfl
@[simp] theorem bunMod_flue (c : Core) (id : Nat) (f : Bundle → Bundle) : (bunMod c id f).flue = c.flue := rfl
@[simp] theorem bunMod_alarmFirst (c : Core) (id : Nat) (f : Bundle → Bundle) : (bunMod c id f).alarmFirst = c.alarmFirst := rfl
@[simp] theorem bunMod_keys (c : Core) (id : Nat) (f : Bundle → Bundle) : (bunMod c id f).keys = c.keys := rfl
@[simp] theorem bunMod_keyNext (c : Core) (id : Nat) (f : Bundle → Bundle) : (bunMod c id f).keyNext = c.keyNext := rfl
@[simp] theorem bunMod_bankSt (c : Core) (id : Nat) (f : Bundle → Bundle) : (bunMod c id f).bankSt = c.bankSt := rfl
@[simp] theorem bunMod_ending (c : Core) (id : Nat) (f : Bundle → Bundle) : (bunMod c id f).ending = c.ending := rfl
@[simp] theorem bunMod_reqStop (c : Core) (id : Nat) (f : Bundle → Bundle) : (bunMod c id f).reqStop = c.reqStop := rfl
@[simp] theorem bunMod_urgent (c : Core) (id : Nat) (f : Bundle → Bundle) : (bunMod c id f).urgent = c.urgent := rfl
@[simp] theorem bunMod_leakAt (c : Core) (id : Nat) (f : Bundle → Bundle) : (bunMod c id f).leakAt = c.leakAt := rfl
@[simp] theorem bunMod_evalAt (c : Core) (id : Nat) (f : Bundle → Bundle) : (bunMod c id f).evalAt = c.evalAt := rfl
@[simp] theorem bunMod_volt (c : Core) (id : Nat) (f : Bundle → Bundle) : (bunMod c id f).volt = c.volt := rfl

@[simp] theorem readMod_tick (c : Core) (sn : Nat) (f : Read → Read) : (readMod c sn f).tick = c.tick := rfl
@[simp] theorem readMod_free (c : Core) (sn : Nat) (f : Read → Read) : (readMod c sn f).free = c.free := rfl
@[simp] theorem readMod_st (c : Core) (sn : Nat) (f : Read → Read) : (readMod c sn f).st = c.st := rfl
@[simp] theorem readMod_regs (c : Core) (sn : Nat) (f : Read → Read) : (readMod c sn f).regs = c.regs := rfl
@[simp] theorem readMod_flags (c : Core) (sn : Nat) (f : Read → Read) : (readMod c sn f).flags = c.flags := rfl
@[simp] theorem readMod_ctr (c : Core) (sn : Nat) (f : Read → Read) : (readMod c sn f).ctr = c.ctr := rfl
@[simp] theorem readMod_rgn (c : Core) (sn : Nat) (f : Read → Read) : (readMod c sn f).rgn = c.rgn := rfl
@[simp] theorem readMod_cport (c : Core) (sn : Nat) (f : Read → Read) : (readMod c sn f).cport = c.cport := rfl
@[simp] theorem readMod_dport (c : Core) (sn : Nat) (f : Read → Read) : (readMod c sn f).dport = c.dport := rfl
@[simp] theorem readMod_bport (c : Core) (sn : Nat) (f : Read → Read) : (readMod c sn f).bport = c.bport := rfl
@[simp] theorem readMod_sport (c : Core) (sn : Nat) (f : Read → Read) : (readMod c sn f).sport = c.sport := rfl
@[simp] theorem readMod_gw (c : Core) (sn : Nat) (f : Read → Read) : (readMod c sn f).gw = c.gw := rfl
@[simp] theorem readMod_dom (c : Core) (sn : Nat) (f : Read → Read) : (readMod c sn f).dom = c.dom := rfl
@[simp] theorem readMod_arr (c : Core) (sn : Nat) (f : Read → Read) : (readMod c sn f).arr = c.arr := rfl
@[simp] theorem readMod_bearer (c : Core) (sn : Nat) (f : Read → Read) : (readMod c sn f).bearer = c.bearer := rfl
@[simp] theorem readMod_role (c : Core) (sn : Nat) (f : Read → Read) : (readMod c sn f).role = c.role := rfl
@[simp] theorem readMod_out (c : Core) (sn : Nat) (f : Read → Read) : (readMod c sn f).out = c.out := rfl
@[simp] theorem readMod_bundles (c : Core) (sn : Nat) (f : Read → Read) : (readMod c sn f).bundles = c.bundles := rfl
@[simp] theorem readMod_nextBundle (c : Core) (sn : Nat) (f : Read → Read) : (readMod c sn f).nextBundle = c.nextBundle := rfl
@[simp] theorem readMod_fab (c : Core) (sn : Nat) (f : Read → Read) : (readMod c sn f).fab = c.fab := rfl
@[simp] theorem readMod_wire (c : Core) (sn : Nat) (f : Read → Read) : (readMod c sn f).wire = c.wire := rfl
@[simp] theorem readMod_fabric (c : Core) (sn : Nat) (f : Read → Read) : (readMod c sn f).fabric = c.fabric := rfl
@[simp] theorem readMod_pug (c : Core) (sn : Nat) (f : Read → Read) : (readMod c sn f).pug = c.pug := rfl
@[simp] theorem readMod_lcOff (c : Core) (sn : Nat) (f : Read → Read) : (readMod c sn f).lcOff = c.lcOff := rfl
@[simp] theorem readMod_lcBusy (c : Core) (sn : Nat) (f : Read → Read) : (readMod c sn f).lcBusy = c.lcBusy := rfl
@[simp] theorem readMod_lcReen (c : Core) (sn : Nat) (f : Read → Read) : (readMod c sn f).lcReen = c.lcReen := rfl
@[simp] theorem readMod_lcStop (c : Core) (sn : Nat) (f : Read → Read) : (readMod c sn f).lcStop = c.lcStop := rfl
@[simp] theorem readMod_trill (c : Core) (sn : Nat) (f : Read → Read) : (readMod c sn f).trill = c.trill := rfl
@[simp] theorem readMod_pol (c : Core) (sn : Nat) (f : Read → Read) : (readMod c sn f).pol = c.pol := rfl
@[simp] theorem readMod_arb (c : Core) (sn : Nat) (f : Read → Read) : (readMod c sn f).arb = c.arb := rfl
@[simp] theorem readMod_hist (c : Core) (sn : Nat) (f : Read → Read) : (readMod c sn f).hist = c.hist := rfl
@[simp] theorem readMod_log (c : Core) (sn : Nat) (f : Read → Read) : (readMod c sn f).log = c.log := rfl
@[simp] theorem readMod_logSeq (c : Core) (sn : Nat) (f : Read → Read) : (readMod c sn f).logSeq = c.logSeq := rfl
@[simp] theorem readMod_bkt (c : Core) (sn : Nat) (f : Read → Read) : (readMod c sn f).bkt = c.bkt := rfl
@[simp] theorem readMod_flue (c : Core) (sn : Nat) (f : Read → Read) : (readMod c sn f).flue = c.flue := rfl
@[simp] theorem readMod_alarmFirst (c : Core) (sn : Nat) (f : Read → Read) : (readMod c sn f).alarmFirst = c.alarmFirst := rfl
@[simp] theorem readMod_keys (c : Core) (sn : Nat) (f : Read → Read) : (readMod c sn f).keys = c.keys := rfl
@[simp] theorem readMod_keyNext (c : Core) (sn : Nat) (f : Read → Read) : (readMod c sn f).keyNext = c.keyNext := rfl
@[simp] theorem readMod_bankSt (c : Core) (sn : Nat) (f : Read → Read) : (readMod c sn f).bankSt = c.bankSt := rfl
@[simp] theorem readMod_ending (c : Core) (sn : Nat) (f : Read → Read) : (readMod c sn f).ending = c.ending := rfl
@[simp] theorem readMod_reqStop (c : Core) (sn : Nat) (f : Read → Read) : (readMod c sn f).reqStop = c.reqStop := rfl
@[simp] theorem readMod_urgent (c : Core) (sn : Nat) (f : Read → Read) : (readMod c sn f).urgent = c.urgent := rfl
@[simp] theorem readMod_leakAt (c : Core) (sn : Nat) (f : Read → Read) : (readMod c sn f).leakAt = c.leakAt := rfl
@[simp] theorem readMod_evalAt (c : Core) (sn : Nat) (f : Read → Read) : (readMod c sn f).evalAt = c.evalAt := rfl
@[simp] theorem readMod_volt (c : Core) (sn : Nat) (f : Read → Read) : (readMod c sn f).volt = c.volt := rfl

end Sys2Proof.Machine
end

