-- ==== Sys2Proof/Tests/Slice0.lean ====
section
/-! SUPPORT. The model's own tests. Small blocks built by helpers; worked examples of the spec; one ill-formed term for each check of
Instr.wellFormed; and, for each statement of Certificates/Slice0/Obligations.lean that has hypotheses, a theorem `witness_<statement>`:
each of its clauses is an existence claim of a state and operands that meet all hypotheses of one clause of the statement together. A clause
whose hypotheses ask a value that Config leaves open has a witness under that value. -/

namespace Sys2Proof.Tests

set_option Elab.async false

open Sys2Proof.Machine

/-- A credit of each class. -/
def crd : List Nat := [1, 1, 1, 1, 1, 1]

/-- A block in READY: entry 0 of the region table makes the first lines NORMAL under key slot 0, which is BYPASS, and B-port 0, whose
back-end is ready, serves them; C-ports 0 and 1 and D-port 0 hold credits. -/
def rdyC : Core := {
  st := { cur := .ready, prev := .waitBackend }
  regs := [(0x50000, 0x1000000), (0x80300, 0), (0x90300, 0)]
  rgn := [(0, { cur := { limit := 0xFFFF, attr := 1 }, stage := { limit := 0xFFFF, attr := 1 } })]
  cport := [(0, { credits := crd, inCrd := crd }), (1, { credits := crd, inCrd := crd })]
  dport := [(0, { credits := crd, inCrd := crd })]
  bport := [(0, { ready := true, scanning := false, credits := crd, inCrd := crd })]
  keys := [(0, .bypass)] }

/-- The same block with its processors up. -/
def rdy : State := { core := rdyC, ctl := { up := true } }

/-- A request of C-port 0 for line 0. -/
def hReq (o : Op) : Req := { op := o, src := 66, tag := 0, rid := 0, line := 0, be := beAll, data := 7 }

/-- A location that holds line 0. -/
def hLoc (u : Use) : Loc := { use := u, data := 5, mirrored := true }

/-- A request on its way to a home that holds line 0 in way 0. -/
def homeC (r : Req) (l : Loc) : Core := { rdyC with arr := { lc := [(0, l)] }, fab := { reqs := [r] } }

/-- A request for line 0 of a Ware window that has been written. -/
def wareC (r : Req) : Core := { rdyC with
  rgn := [(0, { cur := { limit := 0, attr := 3 } })], fab := { reqs := [r] }
  arr := { wcap := 1, ware := [(0, { data := 5, known := beAll })] } }

/-- A one-flit message of instance 1 for line 0, delivered to gateway 0. -/
def spanM (m : Msg) : SpanMsg := { src := 1, dst := 0, gw := 0, eseq := 0, msg := m, flits := [{ msg := m, tag := 5, rid := 81 }] }

/-- An access of D-port 0 to line 0. -/
def dAcc (o : Op) : Access := { req := { op := o, src := 82, tag := 0, rid := 64, line := 0, be := 1, data := 7 }, utag := 3, t0 := 0 }

/-- A buffered STORE to line 0. -/
def psb0 : Psb := { tag := 0, line := 0, be := 1, data := 7, poison := false }

/-- A transaction that has passed LOOKUP: RD_UNIQUE of line 0 by agent 4. -/
def trk0 : Trk := {
  slice := 0, phys := 0, idx := 0, pool := .general, req := { hReq .rdUnique with src := 67, rid := 4 }, st := .gather, passed := true }

/-- A BE_READ of line 0 that is out. -/
def read0 : Read := {
  sn := 0, tag := 0, port := 0, slice := 0, phys := 0, trk := 0, line := 0, pref := false, way := some 0, st := .out }

/-- A bundle of line 0 that is out. -/
def bun0 : Bundle := {
  id := 0, port := 0, slice := 0, cls := 1, urgent := false, lines := [{ line := 0, data := 5, poison := false }], tag := some 0x800
  st := .sent, meters := [0] }

/-- A good BE_HEALTH report. -/
def healthLine : Line :=
  let l := 2 ^ 32
  BitVec.ofNat 512 (l + 2 ^ 480 * crc32 l 480)

/-- A proxy entry of line 0 that lists agent 0. -/
def pfWord : SfWord := sfMk (pMk true 0 [0])

/-- A one-flit management packet of an instance: its type and its body. -/
def mgtM (ptype src : Nat) (body : List Nat) : SpanMsg := {
  src := src, dst := 0, gw := 0, eseq := 0, msg := .mgtPkt
  flits := [{ msg := .mgtPkt, dv := true, be := beAll
              data := BitVec.ofNat 512 (leVal ((([ptype, src, 0, 0, 0, 0, 0, 0] ++ body).map (BitVec.ofNat 8)))) }] }

/-- A record of generation 1. -/
def rec0 (seq : Nat) : Record := {
  close := false, seq := seq, gen := 1, uid := 0, persMap := 0, holdupMap := 0, lostMap := 0, cause := 1, written := 0
  incomplete := 0, pinnedLost := 0, spanLost := 0, ticks := 0, regions := [] }

/-- A command that CP has taken from the packet at byte 0x40 of packet RAM through mailbox 7. -/
def cmd0 (op phase : Nat) (params : List Byte) : Cmd := {
  op := op, origin := .box 7 0x40, params := params, t0 := 0, limit := 100, phase := phase }

/-- The block with that command under way. -/
def runS (c : Core) (x : Cmd) : State := { core := c, ctl := { up := true, run := [x] }, sag := { lpRun := true } }

/-! ### The spec's worked examples, and each well-formedness check -/

/-- The header of the request in the example after R33: RD_SHARED, tag 0x1A3, stream hint 5, RID 29, LADDR 0x48_D159, HPAR 0x1F_EFF7. -/
def exampleFlit : Flit := {
  hdr := BitVec.ofNat 192 (leVal [0, 0xA3, 0xD1, 1, 0x59, 0xD1, 0x48, 0, 0, 0, 5, 0, 4, 255, 255, 255, 255, 255, 255, 255, 255]
    + 2 ^ 168 * 0x1FEFF7)
  pay := 0 }

theorem test_flit_header : fate [0] exampleFlit = .good ∧ fMsg exampleFlit = some .rdShared ∧ fTag exampleFlit = 0x1A3 ∧
    fRid exampleFlit = 29 ∧ fLine exampleFlit = 0x48D159 ∧ fShint exampleFlit = 5 ∧ fLast exampleFlit = true := by decide +kernel

/-- The slices of R173's example and of the first example of the spec. -/
theorem test_slice_hash : hashSlice (0x04123A40 / 64) = 12 ∧ hashSlice (0x00021280 / 64) = 5 := by decide +kernel

/-- The filter index, tag and low tag of the example after R149. -/
theorem test_filter_index : sfSet (0x04123A40 / 64) = 0x122 ∧ sfTag (0x04123A40 / 64) = 4 ∧ sfLtag (0x04123A40 / 64) = 0x29 := by
  decide +kernel

/-- The filter entries of that example: three sharers in EXACT form; four in VECTOR form, which cover twelve agents. -/
theorem test_filter_entry : entShared 3 (0x04123A40 / 64) [29, 13, 40] = 0x290A069D000041 ∧
    entShared 3 (0x04123A40 / 64) [29, 13, 40, 41] = 0x29000488000049 ∧
    eSharers rdyC 0x29000488000049 = [12, 13, 14, 15, 28, 29, 30, 31, 40, 41, 42, 43] := by decide +kernel

/-- The proxy bank of the example of a remote request. -/
theorem test_proxy_bank : pfBank (0x0003000040000040 / 64) = 1 := by decide +kernel

/-- The check value of CRC-32 over the bytes of "123456789" (IEEE 802.3). -/
theorem test_crc32 : crc32 (leVal [0x31, 0x32, 0x33, 0x34, 0x35, 0x36, 0x37, 0x38, 0x39]) 72 = 0xCBF43926 := by decide +kernel

/-- R178's example: L(c) is 2 for B = 4 with no Ware ways and no disabled location; it is 1 for B = 8 with 8 Ware ways and one disabled
location of the partner. -/
theorem test_dirty_bound : lcL { rdyC with pol := { b := 4 } } 0 0 = 2 ∧
    lcL { rdyC with pol := { b := 8 }, arr := { wcap := 8, disabled := [(1, 0, 0)] } } 0 0 = 1 := by decide +kernel

/-- From reset with no command waiting, a step changes nothing. -/
theorem test_idle : step State.reset = .next State.reset := rfl

/-- Each check of Instr.wellFormed refuses a term. -/
theorem test_ill_formed : ([
    .backInvalidation 0 256, .bourdonSlotGrant 0 256, .mirrorWrite 0 ⟨256, .good⟩, .mirrorAck 0 256, .filterCopyWrite 0 257, .filterCopyAck 0 257,
    .closeNotice 0 256, .snoopTimeout 0 256 0, .mirrorAckTimeout 0 256, .storeCmp 0 512, .abandonNotice 0 512, .beReadTimeout 0 4096,
    .bundleTimeout 0 4096, .transferGrant 0 0, .transferGrant 0 65, .bankArbitration 0 0 [] {},
    .bankArbitration 0 0 [1, 1] { mid := true }, .backgroundBundling 0 [], .backgroundBundling 0 [3, 3], .backgroundBundling 0 (List.range 65),
    .tbTick [(1, 0, 0), (1, 0, 0)], .registerWrite (.host true true) 2 0 0, .registerRead (.host true true) 2,
    .marchTestDone [3, 3] ] : List Instr).all (fun i => !i.wellFormed) = true := by decide

/-- Terms that the checks let pass. -/
theorem test_well_formed : ([.backInvalidation 31 255, .storeCmp 7 511, .tbTick [(1, 0, 0), (2, 0, 0)], .vddsWarn] : List Instr).all
    Instr.wellFormed = true := by decide

/-! ### Witnesses -/

theorem witness_StepRunsFront :
    ∃ (s : State), s.pending = [] :=
  ⟨rdy, by decide +kernel⟩

theorem witness_QueueKept :
    ∃ (i : Instr) (s : State) (t : State), exec i s = .next t :=
  ⟨.vddsWarn, rdy, { rdy with pwr := { rdy.pwr with vddsWarn := true } }, rfl⟩

theorem witness_IngressTakesRequest :
    (∃ (s : State) (c : Core) (p : Fin 16) (f : Flit) (m : Msg) (o : Op) (tg : Nat), s.core = c ∧ (On s ∧ CanTake c p 0 ∧ fate [0,
      2, 3, 4] f = .good ∧ fClass f = 0 ∧ statBad f = false ∧ fReg f = false) ∧ ((msgData m = true → storeRoom (cpGet c p) 0 = true)
      ∧ fMsg f = some m ∧ cOp m = some o ∧ isLocal c (fLine f) = true ∧ tagUsed (cpGet c p).tags (cRid p f) (fTag f) = false ∧ cOut
      (cpGet c p) < 512) ∧ freeTag (cpGet c p).tags 1024 = some tg ∧ NoFlip c ∧ (regv c (portPage (epC p) + 0x300)).getLsbD 0 =
      false) ∧
    (∃ (s : State) (c : Core) (n : Fin 8) (f : Flit), s.core = c ∧ (On s ∧ DirectTakes c n ∧ NoFlip c ∧ fate [0] f = .good ∧ statBad
      f = false ∧ fReg f = false) ∧ fMsg f = some .store ∧ dTagUsed (dpGet c n) (fTag f) = false ∧ dOut (dpGet c n) < 256 ∧ instOk c
      (fLine f) = true ∧ storeCheck c (fLine f) = none) ∧
    (∃ (s : State) (c : Core) (k : Fin 4) (m : SpanMsg) (o : Op), s.core = c ∧ (On s ∧ portsUp c = true ∧ rxFind c k (fun m =>
      msgCls m.msg == 0) = some m ∧ isMember c m.src = true ∧ (rxFlit m).odd = false ∧ (rxFlit m).reg = false) ∧ spanOp m.msg = some
      o) :=
  ⟨⟨rdy, _, 0, encFlit { msg := .rdShared, tag := 4095, line := 0 }, .rdShared, .rdShared, 0, rfl, by decide +kernel, by decide +kernel,
    by decide +kernel⟩,
   ⟨rdy, _, 0, encFlit { msg := .store, tag := 4095, dv := true, be := 1, data := 7 }, rfl, by decide +kernel, by decide +kernel⟩,
   ⟨{ rdy with core := { rdyC with gw := [(0, { rx := [spanM .rdShared] })], dom := { members := 3 } } }, _, 0, spanM .rdShared, .rdShared,
    rfl, by decide +kernel, by decide +kernel⟩⟩

theorem witness_PostedStores :
    (∃ (s : State) (c : Core) (n : Fin 8) (a : Access) (tg : Nat), s.core = c ∧ (On s ∧ portsUp c = true ∧ (dpGet c n).closed =
      false ∧ (dpGet c n).fifo = [a] ∧ a.req.op = .store ∧ a.req.reg = false) ∧ (NoFlip c ∧ storeCheck c a.req.line = none ∧ (dpGet
      c n).psb.length < 64 ∧ (dpGet c n).waiting = none ∧ (dpGet c n).loads = [] ∧ (dpGet c n).early = []) ∧ dFreeTag (dpGet c n) =
      some tg ∧ CanSend (dpGet c n).outq (dpGet c n).credits 2) ∧
    (∃ (s : State) (c : Core) (n : Fin 8) (b : Psb), s.core = c ∧ (On s ∧ c.st.cur ≠ .flush ∧ NoFlip c ∧ (dpGet c n).psb.find? (fun
      b => !b.issued) = some b ∧ (dpGet c n).waiting = none ∧ (dpGet c n).loads = []) ∧ (∀ y ∈ (dpGet c n).psb, isDevice c y.line =
      false) ∧ (regv c (0x90400 + 0x1000 * n)).getLsbD 0 = false ∧ isLocal c b.line = true) ∧
    (∃ (s : State) (c : Core) (n : Fin 8) (tag : Nat) (x : Cmp) (b : Psb) (u : Trk), s.core = c ∧ (On s ∧ cmpFor c (epD n) tag =
      some x ∧ (dpGet c n).psb.find? (fun b => b.tag == tag) = some b ∧ x.ackreq = true ∧ x.stat = .ok ∧ isLocal c b.line = true) ∧
      (c.arr.trk = [u] ∧ Restful c ∧ u.Clear c ∧ ackedAll u = true ∧ u.req.src = epD n ∧ u.req.tag = tag) ∧ (u.second = false ∧
      u.passed = true ∧ u.st = .ackWait ∧ u.cmpSent = true ∧ (dpGet c n).fifo = [] ∧ (dpGet c n).waiting = none) ∧ ((dpGet c
      n).loads = [] ∧ (dpGet c n).early = [] ∧ (dpGet c n).closed = false ∧ lineType c b.line = 1 ∧
      (match rgnIndex c b.line with | some r => rgnStrict (rgnCur c r) | none => false) = false ∧ (dpGet c n).dlist.contains b.line
      = false) ∧ (dpGet c n).dlist.length < 128) ∧
    (∃ (s : State) (c : Core) (n : Fin 8) (tag : Nat), s.core = c ∧ On s ∧ c.fab.abandon.contains (n.val, tag) = true) :=
  ⟨⟨{ rdy with core := { rdyC with dport := [(0, { credits := crd, inCrd := crd, fifo := [dAcc .store] })] } }, _, 0, dAcc .store, 0, rfl,
    by decide +kernel, by decide +kernel, by decide +kernel⟩,
   ⟨{ rdy with core := { rdyC with dport := [(0, { psb := [psb0] })] } }, _, 0, psb0, rfl, by decide +kernel, by decide +kernel⟩,
   ⟨{ rdy with
      core := { rdyC with
                dport := [(0, { psb := [{ psb0 with issued := true }] })]
                arr := { trk := [{ slice := 0
                                   phys := 0
                                   idx := 0
                                   pool := .general
                                   req := (dAcc .store).req
                                   st := .ackWait
                                   passed := true
                                   cmpSent := true }] }
                fab := { cmps := [{ dst := 82, tag := 0, ackreq := true }] } } }, _, 0, 0, { dst := 82, tag := 0, ackreq := true },
    { psb0 with issued := true },
    { slice := 0, phys := 0, idx := 0, pool := .general, req := (dAcc .store).req, st := .ackWait, passed := true, cmpSent := true }, rfl,
    by decide +kernel, by decide +kernel, by decide +kernel, by decide +kernel, by decide +kernel⟩,
   ⟨{ rdy with core := { rdyC with dport := [(0, { psb := [{ psb0 with issued := true }] })], fab := { abandon := [(0, 0)] } } }, _, 0, 0,
    rfl, by decide +kernel⟩⟩

theorem witness_FencesComplete :
    (∃ (s : State) (c : Core) (n : Fin 8) (a : Access) (i : Instr), s.core = c ∧ (On s ∧ portsUp c = true ∧ NoFlip c ∧ (dpGet c
      n).closed = false ∧ (dpGet c n).waiting = some a ∧ dQuiet (dpGet c n) = true) ∧ (dpGet c n).fifo = [] ∧ (dpGet c n).early = []
      ∧ CanSend (dpGet c n).outq (dpGet c n).credits 2 ∧ ((i = .fence n ∧ a.req.op = .fence) ∨ (i = .fenceP n ∧ a.req.op = .fenceP ∧
      (dpGet c n).dlist = [] ∧ dEarly (dpGet c n) = false))) ∧
    (∃ (s : State) (c : Core) (n : Fin 8) (a : Access) (i : Instr), s.core = c ∧ (On s ∧ portsUp c = true ∧ NoFlip c ∧ (dpGet c
      n).closed = false ∧ (dpGet c n).waiting = some a ∧ dQuiet (dpGet c n) = true) ∧ (dpGet c n).fifo = [] ∧ (dpGet c n).early = []
      ∧ CanSend (dpGet c n).outq (dpGet c n).credits 2 ∧ ((i = .fence n ∧ a.req.op = .fence) ∨ (i = .fenceP n ∧ a.req.op = .fenceP ∧
      (dpGet c n).dlist = [] ∧ dEarly (dpGet c n) = false)) ∧ i = .fenceP 0) ∧
    (∃ (s : State) (c : Core) (n : Fin 8) (a : Access), s.core = c ∧ (On s ∧ NoFlip c ∧ (dpGet c n).waiting = some a ∧ a.req.op =
      .fenceP ∧ dQuiet (dpGet c n) = true ∧ (dpGet c n).fencing = false) ∧ (dpGet c n).dlist ≠ [] ∧ (∀ l ∈ (dpGet c n).dlist,
      isLocal c l = true) ∧ (dpGet c n).tags.length + (dpGet c n).psb.length + (dpGet c n).dlist.length ≤ 512) :=
  ⟨⟨{ rdy with core := { rdyC with dport := [(0, { credits := crd, inCrd := crd, waiting := some (dAcc .fence) })] } }, _, 0, dAcc .fence,
    .fence 0, rfl, by decide +kernel, by decide +kernel⟩,
   ⟨{ rdy with core := { rdyC with dport := [(0, { credits := crd, inCrd := crd, waiting := some (dAcc .fenceP) })] } }, _, 0,
    dAcc .fenceP, .fenceP 0, rfl, by decide +kernel, by decide +kernel⟩,
   ⟨{ rdy with core := { rdyC with dport := [(0, { waiting := some (dAcc .fenceP), dlist := [0, 7] })] } }, _, 0, dAcc .fenceP, rfl,
    by decide +kernel, by decide +kernel⟩⟩

theorem witness_ReadsLeaveNoCopy :
    (∃ (s : State) (c : Core) (r : Req) (w : Nat) (i : Instr), s.core = c ∧ On s ∧ QuietHome c r ∧ sfView c (sliceOf c r.line)
      r.line = .uncached ∧ lcFind c (sliceOf c r.line) r.line = some w ∧ (homeLoc c r.line w).use = .clean ∧ ((i = .rdOnce { src := r.src, tag := r.tag }
      ∧ r.op = .rdOnce) ∨ (i = .load { src := r.src, tag := r.tag } ∧ r.op = .load) ∨ (i = .persist { src := r.src, tag := r.tag } ∧
      r.op = .persist))) ∧
    (∃ (s : State) (c : Core) (r : Req) (w : Nat) (i : Instr), s.core = c ∧ (On s ∧ QuietHome c r ∧ sfView c (sliceOf c r.line)
      r.line = .uncached ∧ lcFind c (sliceOf c r.line) r.line = some w ∧ (homeLoc c r.line w).use = .clean ∧ ((i = .rdOnce { src := r.src, tag := r.tag }
      ∧ r.op = .rdOnce) ∨ (i = .load { src := r.src, tag := r.tag } ∧ r.op = .load) ∨ (i = .persist { src := r.src, tag := r.tag } ∧
      r.op = .persist))) ∧ i = .load { src := 66, tag := 0 }) ∧
    (∃ (s : State) (c : Core) (r : Req) (w : Nat) (i : Instr), s.core = c ∧ (On s ∧ QuietHome c r ∧ sfView c (sliceOf c r.line)
      r.line = .uncached ∧ lcFind c (sliceOf c r.line) r.line = some w ∧ (homeLoc c r.line w).use = .clean ∧ ((i = .rdOnce { src := r.src, tag := r.tag }
      ∧ r.op = .rdOnce) ∨ (i = .load { src := r.src, tag := r.tag } ∧ r.op = .load) ∨ (i = .persist { src := r.src, tag := r.tag } ∧
      r.op = .persist))) ∧ i = .persist { src := 66, tag := 0 }) :=
  ⟨⟨{ rdy with core := { homeC (hReq .rdOnce) (hLoc .clean) with fab := { reqs := [hReq .rdOnce] } } }, _, hReq .rdOnce, 0,
    .rdOnce { src := 66, tag := 0 }, rfl, by decide +kernel⟩,
   ⟨{ rdy with core := { homeC (hReq .load) (hLoc .clean) with fab := { reqs := [hReq .load] } } }, _, hReq .load, 0,
    .load { src := 66, tag := 0 }, rfl, by decide +kernel, by decide +kernel⟩,
   ⟨{ rdy with core := { homeC (hReq .persist) (hLoc .clean) with fab := { reqs := [hReq .persist] } } }, _, hReq .persist, 0,
    .persist { src := 66, tag := 0 }, rfl, by decide +kernel, by decide +kernel⟩⟩

theorem witness_ReadsListRequester :
    (∃ (s : State) (c : Core) (r : Req) (w : Nat) (v : Nat) (j : Nat) (i : Instr), s.core = c ∧ (On s ∧ QuietHome c r ∧ sfView c
      (sliceOf c r.line) r.line = .uncached ∧ lcFind c (sliceOf c r.line) r.line = some w ∧ sharerIdx r.rid = some j ∧ sfFree c
      (sliceOf c r.line) (sfSet r.line) = some v) ∧ ((i = .rdShared { src := r.src, tag := r.tag } ∧ r.op = .rdShared) ∨ (i =
      .rdUnique { src := r.src, tag := r.tag } ∧ r.op = .rdUnique) ∨ (i = .cleanUnique { src := r.src, tag := r.tag } ∧ r.op =
      .cleanUnique))) ∧
    (∃ (s : State) (c : Core) (r : Req) (w : Nat) (v : Nat) (j : Nat) (i : Instr), s.core = c ∧ (On s ∧ QuietHome c r ∧ sfView c
      (sliceOf c r.line) r.line = .uncached ∧ lcFind c (sliceOf c r.line) r.line = some w ∧ sharerIdx r.rid = some j ∧ sfFree c
      (sliceOf c r.line) (sfSet r.line) = some v) ∧ ((i = .rdShared { src := r.src, tag := r.tag } ∧ r.op = .rdShared) ∨ (i =
      .rdUnique { src := r.src, tag := r.tag } ∧ r.op = .rdUnique) ∨ (i = .cleanUnique { src := r.src, tag := r.tag } ∧ r.op =
      .cleanUnique)) ∧ i = .rdUnique { src := 66, tag := 0 }) ∧
    (∃ (s : State) (c : Core) (r : Req) (w : Nat) (v : Nat) (j : Nat) (i : Instr), s.core = c ∧ (On s ∧ QuietHome c r ∧ sfView c
      (sliceOf c r.line) r.line = .uncached ∧ lcFind c (sliceOf c r.line) r.line = some w ∧ sharerIdx r.rid = some j ∧ sfFree c
      (sliceOf c r.line) (sfSet r.line) = some v) ∧ ((i = .rdShared { src := r.src, tag := r.tag } ∧ r.op = .rdShared) ∨ (i =
      .rdUnique { src := r.src, tag := r.tag } ∧ r.op = .rdUnique) ∨ (i = .cleanUnique { src := r.src, tag := r.tag } ∧ r.op =
      .cleanUnique)) ∧ i = .cleanUnique { src := 66, tag := 0 }) :=
  ⟨⟨{ rdy with core := { homeC (hReq .rdShared) (hLoc .clean) with fab := { reqs := [hReq .rdShared] } } }, _, hReq .rdShared, 0, 0, 0,
    .rdShared { src := 66, tag := 0 }, rfl, by decide +kernel, by decide +kernel⟩,
   ⟨{ rdy with core := { homeC (hReq .rdUnique) (hLoc .clean) with fab := { reqs := [hReq .rdUnique] } } }, _, hReq .rdUnique, 0, 0, 0,
    .rdUnique { src := 66, tag := 0 }, rfl, by decide +kernel, by decide +kernel⟩,
   ⟨{ rdy with core := { homeC (hReq .cleanUnique) (hLoc .clean) with fab := { reqs := [hReq .cleanUnique] } } }, _, hReq .cleanUnique, 0,
    0, 0, .cleanUnique { src := 66, tag := 0 }, rfl, by decide +kernel, by decide +kernel⟩⟩

theorem witness_WritesReplaceInPlace :
    (∃ (s : State) (c : Core) (r : Req) (w : Nat) (i : Instr), s.core = c ∧ (On s ∧ QuietHome c r ∧ sfView c (sliceOf c r.line)
      r.line = .uncached ∧ lcFind c (sliceOf c r.line) r.line = some w ∧ (homeLoc c r.line w).use = .budgeted ∧ (homeLoc c r.line
      w).pf = false) ∧ (lcDirtyWays c (sliceOf c r.line) (lcSet r.line) .budgeted).length < lcL c (sliceOf c r.line) (lcSet r.line)
      ∧ ((i = .wrFull { src := r.src, tag := r.tag } ∧ r.op = .wrFull) ∨ (i = .wrPartial { src := r.src, tag := r.tag } ∧ r.op =
      .wrPartial) ∨ (i = .drainedStore { src := r.src, tag := r.tag } ∧ r.op = .store) ∨ (i = .storeCond { src := r.src, tag := r.tag }
      ∧ r.op = .storeCond ∧ ∃ m, mfind? c.arr.mon (monKey (sliceOf c r.line) r.rid) = some m ∧ m.bad = false ∧ m.granule = r.line /
      2 ∧ now c ≤ m.expiry) ∨ (i = .pugLineAction { src := r.src, tag := r.tag } ∧ r.op = .pug ∧ r.aux = 4))) ∧
    (∃ (s : State) (c : Core) (r : Req) (w : Nat) (i : Instr), s.core = c ∧ (On s ∧ QuietHome c r ∧ sfView c (sliceOf c r.line)
      r.line = .uncached ∧ lcFind c (sliceOf c r.line) r.line = some w ∧ (homeLoc c r.line w).use = .budgeted ∧ (homeLoc c r.line
      w).pf = false) ∧ (lcDirtyWays c (sliceOf c r.line) (lcSet r.line) .budgeted).length < lcL c (sliceOf c r.line) (lcSet r.line)
      ∧ ((i = .wrFull { src := r.src, tag := r.tag } ∧ r.op = .wrFull) ∨ (i = .wrPartial { src := r.src, tag := r.tag } ∧ r.op =
      .wrPartial) ∨ (i = .drainedStore { src := r.src, tag := r.tag } ∧ r.op = .store) ∨ (i = .storeCond { src := r.src, tag := r.tag }
      ∧ r.op = .storeCond ∧ ∃ m, mfind? c.arr.mon (monKey (sliceOf c r.line) r.rid) = some m ∧ m.bad = false ∧ m.granule = r.line /
      2 ∧ now c ≤ m.expiry) ∨ (i = .pugLineAction { src := r.src, tag := r.tag } ∧ r.op = .pug ∧ r.aux = 4)) ∧ i = .wrPartial { src := 66, tag := 0 }) ∧
    (∃ (s : State) (c : Core) (r : Req) (w : Nat) (i : Instr), s.core = c ∧ (On s ∧ QuietHome c r ∧ sfView c (sliceOf c r.line)
      r.line = .uncached ∧ lcFind c (sliceOf c r.line) r.line = some w ∧ (homeLoc c r.line w).use = .budgeted ∧ (homeLoc c r.line
      w).pf = false) ∧ (lcDirtyWays c (sliceOf c r.line) (lcSet r.line) .budgeted).length < lcL c (sliceOf c r.line) (lcSet r.line)
      ∧ ((i = .wrFull { src := r.src, tag := r.tag } ∧ r.op = .wrFull) ∨ (i = .wrPartial { src := r.src, tag := r.tag } ∧ r.op =
      .wrPartial) ∨ (i = .drainedStore { src := r.src, tag := r.tag } ∧ r.op = .store) ∨ (i = .storeCond { src := r.src, tag := r.tag }
      ∧ r.op = .storeCond ∧ ∃ m, mfind? c.arr.mon (monKey (sliceOf c r.line) r.rid) = some m ∧ m.bad = false ∧ m.granule = r.line /
      2 ∧ now c ≤ m.expiry) ∨ (i = .pugLineAction { src := r.src, tag := r.tag } ∧ r.op = .pug ∧ r.aux = 4)) ∧ i = .drainedStore { src := 66, tag := 0 }) ∧
    (∃ (s : State) (c : Core) (r : Req) (w : Nat) (i : Instr), s.core = c ∧ (On s ∧ QuietHome c r ∧ sfView c (sliceOf c r.line)
      r.line = .uncached ∧ lcFind c (sliceOf c r.line) r.line = some w ∧ (homeLoc c r.line w).use = .budgeted ∧ (homeLoc c r.line
      w).pf = false) ∧ (lcDirtyWays c (sliceOf c r.line) (lcSet r.line) .budgeted).length < lcL c (sliceOf c r.line) (lcSet r.line)
      ∧ ((i = .wrFull { src := r.src, tag := r.tag } ∧ r.op = .wrFull) ∨ (i = .wrPartial { src := r.src, tag := r.tag } ∧ r.op =
      .wrPartial) ∨ (i = .drainedStore { src := r.src, tag := r.tag } ∧ r.op = .store) ∨ (i = .storeCond { src := r.src, tag := r.tag }
      ∧ r.op = .storeCond ∧ ∃ m, mfind? c.arr.mon (monKey (sliceOf c r.line) r.rid) = some m ∧ m.bad = false ∧ m.granule = r.line /
      2 ∧ now c ≤ m.expiry) ∨ (i = .pugLineAction { src := r.src, tag := r.tag } ∧ r.op = .pug ∧ r.aux = 4)) ∧ i = .storeCond { src := 82, tag := 0 }) ∧
    (∃ (s : State) (c : Core) (r : Req) (w : Nat) (i : Instr), s.core = c ∧ (On s ∧ QuietHome c r ∧ sfView c (sliceOf c r.line)
      r.line = .uncached ∧ lcFind c (sliceOf c r.line) r.line = some w ∧ (homeLoc c r.line w).use = .budgeted ∧ (homeLoc c r.line
      w).pf = false) ∧ (lcDirtyWays c (sliceOf c r.line) (lcSet r.line) .budgeted).length < lcL c (sliceOf c r.line) (lcSet r.line)
      ∧ ((i = .wrFull { src := r.src, tag := r.tag } ∧ r.op = .wrFull) ∨ (i = .wrPartial { src := r.src, tag := r.tag } ∧ r.op =
      .wrPartial) ∨ (i = .drainedStore { src := r.src, tag := r.tag } ∧ r.op = .store) ∨ (i = .storeCond { src := r.src, tag := r.tag }
      ∧ r.op = .storeCond ∧ ∃ m, mfind? c.arr.mon (monKey (sliceOf c r.line) r.rid) = some m ∧ m.bad = false ∧ m.granule = r.line /
      2 ∧ now c ≤ m.expiry) ∨ (i = .pugLineAction { src := r.src, tag := r.tag } ∧ r.op = .pug ∧ r.aux = 4)) ∧ i = .pugLineAction { src := 111, tag := 0 }) :=
  ⟨⟨{ rdy with core := { homeC (hReq .wrFull) (hLoc .budgeted) with fab := { reqs := [hReq .wrFull] } } }, _, hReq .wrFull, 0,
    .wrFull { src := 66, tag := 0 }, rfl, by decide +kernel, by decide +kernel⟩,
   ⟨{ rdy with core := { homeC (hReq .wrPartial) (hLoc .budgeted) with fab := { reqs := [hReq .wrPartial] } } }, _, hReq .wrPartial, 0,
    .wrPartial { src := 66, tag := 0 }, rfl, by decide +kernel, by decide +kernel⟩,
   ⟨{ rdy with core := { homeC (hReq .store) (hLoc .budgeted) with fab := { reqs := [hReq .store] } } }, _, hReq .store, 0,
    .drainedStore { src := 66, tag := 0 }, rfl, by decide +kernel, by decide +kernel⟩,
   ⟨{ rdy with
      core := { homeC (hReq .storeCond) (hLoc .budgeted) with
                arr := { lc := [(0, hLoc .budgeted)], mon := [(0, { granule := 0, expiry := 0 })] }
                fab := { reqs := [{ hReq .storeCond with src := 82, rid := 64, be := 1 }] } } }, _,
    { hReq .storeCond with src := 82, rid := 64, be := 1 }, 0, .storeCond { src := 82, tag := 0 }, rfl, by decide +kernel,
    by decide +kernel⟩,
   ⟨{ rdy with
      core := { homeC (hReq .pug) (hLoc .budgeted) with fab := { reqs := [{ hReq .pug with src := 111, rid := 76, aux := 4 }] } } }, _,
    { hReq .pug with src := 111, rid := 76, aux := 4 }, 0, .pugLineAction { src := 111, tag := 0 }, rfl, by decide +kernel,
    by decide +kernel⟩⟩

theorem witness_LoadResAndPrefetch :
    (∃ (s : State) (c : Core) (r : Req) (w : Nat), s.core = c ∧ On s ∧ QuietHome c r ∧ r.op = .loadRes ∧ sfView c (sliceOf c r.line)
      r.line = .uncached ∧ sfView c (sliceOf c r.line) (r.line ^^^ 1) = .uncached ∧ lcFind c (sliceOf c r.line) r.line = some w) ∧
    (∃ (s : State) (c : Core) (r : Req) (v : Nat) (b : Nat), s.core = c ∧ (On s ∧ QuietHome c r ∧ r.op = .prefetch ∧ sfView c
      (sliceOf c r.line) r.line = .uncached ∧ lcFind c (sliceOf c r.line) r.line = none ∧ bportOf c r.line = some b) ∧ lcMayTake c
      (sliceOf c r.line) (lcSet r.line) = true ∧ (List.range 16).find? (fun w => lcIsFree c (physOf c (sliceOf c r.line)) (lcSet
      r.line) w && (homeLoc c r.line w).use == .invalid) = some v) :=
  ⟨⟨{ rdy with
      core := { homeC (hReq .loadRes) (hLoc .clean) with fab := { reqs := [{ hReq .loadRes with src := 82, rid := 64, be := 1 }] } } }, _,
    { hReq .loadRes with src := 82, rid := 64, be := 1 }, 0, rfl, by decide +kernel⟩,
   ⟨{ rdy with core := { rdyC with fab := { reqs := [{ hReq .prefetch with src := 194, rid := 77 }] } } }, _,
    { hReq .prefetch with src := 194, rid := 77 }, 0, 0, rfl, by decide +kernel, by decide +kernel⟩⟩

theorem witness_WareLinesActAtLookup :
    (∃ (s : State) (c : Core) (r : Req) (i : Instr), s.core = c ∧ (On s ∧ c.arr.trk = [] ∧ c.arr.waits = [] ∧ NoFlip c ∧ c.ending =
      false ∧ destHeld c r.line = false) ∧ (c.fabric.taken.contains (sliceOf c r.line) = false ∧ setHeld c (sliceOf c r.line) (sfSet
      r.line) = false ∧ sfSetOk c (sliceOf c r.line) (sfSet r.line) = true ∧ (∀ p ∈ c.arr.lc, p.2.tbad = false) ∧ c.fab.reqs.find?
      (fun q => q.src == r.src && q.tag == r.tag && q.op == r.op) = some r ∧ firstOf c r = true) ∧ (lineType c r.line = 3 ∧ wareIn c
      r.line = true ∧ c.lcStop = false ∧ roleOf c (sliceOf c r.line) = .active ∧ (let lo := wareLoc (wareOff c r.line); lcDisabled c
      (physOf c lo.1) lo.2.1 lo.2.2 = false) ∧ (mget c.arr.ware (wareOff c r.line) {}).known = beAll) ∧ (mget c.arr.ware (wareOff c
      r.line) {}).bad = false ∧ ((i = .rdOnce { src := r.src, tag := r.tag } ∧ r.op = .rdOnce) ∨ (i = .load { src := r.src, tag := r.tag }
      ∧ r.op = .load) ∨ (i = .wrFull { src := r.src, tag := r.tag } ∧ r.op = .wrFull) ∨ (i = .wrPartial { src := r.src, tag := r.tag }
      ∧ r.op = .wrPartial) ∨ (i = .drainedStore { src := r.src, tag := r.tag } ∧ r.op = .store))) ∧
    (∃ (s : State) (c : Core) (r : Req) (i : Instr), s.core = c ∧ (On s ∧ c.arr.trk = [] ∧ c.arr.waits = [] ∧ NoFlip c ∧ c.ending =
      false ∧ destHeld c r.line = false) ∧ (c.fabric.taken.contains (sliceOf c r.line) = false ∧ setHeld c (sliceOf c r.line) (sfSet
      r.line) = false ∧ sfSetOk c (sliceOf c r.line) (sfSet r.line) = true ∧ (∀ p ∈ c.arr.lc, p.2.tbad = false) ∧ c.fab.reqs.find?
      (fun q => q.src == r.src && q.tag == r.tag && q.op == r.op) = some r ∧ firstOf c r = true) ∧ (lineType c r.line = 3 ∧ wareIn c
      r.line = true ∧ c.lcStop = false ∧ roleOf c (sliceOf c r.line) = .active ∧ (let lo := wareLoc (wareOff c r.line); lcDisabled c
      (physOf c lo.1) lo.2.1 lo.2.2 = false) ∧ (mget c.arr.ware (wareOff c r.line) {}).known = beAll) ∧ (mget c.arr.ware (wareOff c
      r.line) {}).bad = false ∧ ((i = .rdOnce { src := r.src, tag := r.tag } ∧ r.op = .rdOnce) ∨ (i = .load { src := r.src, tag := r.tag }
      ∧ r.op = .load) ∨ (i = .wrFull { src := r.src, tag := r.tag } ∧ r.op = .wrFull) ∨ (i = .wrPartial { src := r.src, tag := r.tag }
      ∧ r.op = .wrPartial) ∨ (i = .drainedStore { src := r.src, tag := r.tag } ∧ r.op = .store)) ∧ i = .load { src := 66, tag := 0 }) ∧
    (∃ (s : State) (c : Core) (r : Req) (i : Instr), s.core = c ∧ (On s ∧ c.arr.trk = [] ∧ c.arr.waits = [] ∧ NoFlip c ∧ c.ending =
      false ∧ destHeld c r.line = false) ∧ (c.fabric.taken.contains (sliceOf c r.line) = false ∧ setHeld c (sliceOf c r.line) (sfSet
      r.line) = false ∧ sfSetOk c (sliceOf c r.line) (sfSet r.line) = true ∧ (∀ p ∈ c.arr.lc, p.2.tbad = false) ∧ c.fab.reqs.find?
      (fun q => q.src == r.src && q.tag == r.tag && q.op == r.op) = some r ∧ firstOf c r = true) ∧ (lineType c r.line = 3 ∧ wareIn c
      r.line = true ∧ c.lcStop = false ∧ roleOf c (sliceOf c r.line) = .active ∧ (let lo := wareLoc (wareOff c r.line); lcDisabled c
      (physOf c lo.1) lo.2.1 lo.2.2 = false) ∧ (mget c.arr.ware (wareOff c r.line) {}).known = beAll) ∧ (mget c.arr.ware (wareOff c
      r.line) {}).bad = false ∧ ((i = .rdOnce { src := r.src, tag := r.tag } ∧ r.op = .rdOnce) ∨ (i = .load { src := r.src, tag := r.tag }
      ∧ r.op = .load) ∨ (i = .wrFull { src := r.src, tag := r.tag } ∧ r.op = .wrFull) ∨ (i = .wrPartial { src := r.src, tag := r.tag }
      ∧ r.op = .wrPartial) ∨ (i = .drainedStore { src := r.src, tag := r.tag } ∧ r.op = .store)) ∧ i = .wrFull { src := 66, tag := 0 }) ∧
    (∃ (s : State) (c : Core) (r : Req) (i : Instr), s.core = c ∧ (On s ∧ c.arr.trk = [] ∧ c.arr.waits = [] ∧ NoFlip c ∧ c.ending =
      false ∧ destHeld c r.line = false) ∧ (c.fabric.taken.contains (sliceOf c r.line) = false ∧ setHeld c (sliceOf c r.line) (sfSet
      r.line) = false ∧ sfSetOk c (sliceOf c r.line) (sfSet r.line) = true ∧ (∀ p ∈ c.arr.lc, p.2.tbad = false) ∧ c.fab.reqs.find?
      (fun q => q.src == r.src && q.tag == r.tag && q.op == r.op) = some r ∧ firstOf c r = true) ∧ (lineType c r.line = 3 ∧ wareIn c
      r.line = true ∧ c.lcStop = false ∧ roleOf c (sliceOf c r.line) = .active ∧ (let lo := wareLoc (wareOff c r.line); lcDisabled c
      (physOf c lo.1) lo.2.1 lo.2.2 = false) ∧ (mget c.arr.ware (wareOff c r.line) {}).known = beAll) ∧ (mget c.arr.ware (wareOff c
      r.line) {}).bad = false ∧ ((i = .rdOnce { src := r.src, tag := r.tag } ∧ r.op = .rdOnce) ∨ (i = .load { src := r.src, tag := r.tag }
      ∧ r.op = .load) ∨ (i = .wrFull { src := r.src, tag := r.tag } ∧ r.op = .wrFull) ∨ (i = .wrPartial { src := r.src, tag := r.tag }
      ∧ r.op = .wrPartial) ∨ (i = .drainedStore { src := r.src, tag := r.tag } ∧ r.op = .store)) ∧ i = .wrPartial { src := 66, tag := 0 }) ∧
    (∃ (s : State) (c : Core) (r : Req) (i : Instr), s.core = c ∧ (On s ∧ c.arr.trk = [] ∧ c.arr.waits = [] ∧ NoFlip c ∧ c.ending =
      false ∧ destHeld c r.line = false) ∧ (c.fabric.taken.contains (sliceOf c r.line) = false ∧ setHeld c (sliceOf c r.line) (sfSet
      r.line) = false ∧ sfSetOk c (sliceOf c r.line) (sfSet r.line) = true ∧ (∀ p ∈ c.arr.lc, p.2.tbad = false) ∧ c.fab.reqs.find?
      (fun q => q.src == r.src && q.tag == r.tag && q.op == r.op) = some r ∧ firstOf c r = true) ∧ (lineType c r.line = 3 ∧ wareIn c
      r.line = true ∧ c.lcStop = false ∧ roleOf c (sliceOf c r.line) = .active ∧ (let lo := wareLoc (wareOff c r.line); lcDisabled c
      (physOf c lo.1) lo.2.1 lo.2.2 = false) ∧ (mget c.arr.ware (wareOff c r.line) {}).known = beAll) ∧ (mget c.arr.ware (wareOff c
      r.line) {}).bad = false ∧ ((i = .rdOnce { src := r.src, tag := r.tag } ∧ r.op = .rdOnce) ∨ (i = .load { src := r.src, tag := r.tag }
      ∧ r.op = .load) ∨ (i = .wrFull { src := r.src, tag := r.tag } ∧ r.op = .wrFull) ∨ (i = .wrPartial { src := r.src, tag := r.tag }
      ∧ r.op = .wrPartial) ∨ (i = .drainedStore { src := r.src, tag := r.tag } ∧ r.op = .store)) ∧ i = .drainedStore { src := 66, tag := 0 }) :=
  ⟨⟨{ rdy with core := wareC (hReq .rdOnce) }, _, hReq .rdOnce, .rdOnce { src := 66, tag := 0 }, rfl, by decide +kernel, by decide +kernel,
    by decide +kernel, by decide +kernel⟩,
   ⟨{ rdy with core := wareC (hReq .load) }, _, hReq .load, .load { src := 66, tag := 0 }, rfl, by decide +kernel, by decide +kernel,
    by decide +kernel, by decide +kernel⟩,
   ⟨{ rdy with core := wareC (hReq .wrFull) }, _, hReq .wrFull, .wrFull { src := 66, tag := 0 }, rfl, by decide +kernel, by decide +kernel,
    by decide +kernel, by decide +kernel⟩,
   ⟨{ rdy with core := wareC (hReq .wrPartial) }, _, hReq .wrPartial, .wrPartial { src := 66, tag := 0 }, rfl, by decide +kernel,
    by decide +kernel, by decide +kernel, by decide +kernel⟩,
   ⟨{ rdy with core := wareC (hReq .store) }, _, hReq .store, .drainedStore { src := 66, tag := 0 }, rfl, by decide +kernel,
    by decide +kernel, by decide +kernel, by decide +kernel⟩⟩

theorem witness_WriteBacksLeaveFilter :
    (∃ (s : State) (c : Core) (r : Req) (w : Nat) (v : Nat) (j : Nat) (i : Instr), s.core = c ∧ On s ∧ QuietHome c r ∧ sfView c
      (sliceOf c r.line) r.line = .excl v j ∧ sharerIdx r.rid = some j ∧ ((i = .evictClean (.moving { src := r.src, tag := r.tag })
      ∧ r.op = .evictClean) ∨ (i = .wbDirty (.moving { src := r.src, tag := r.tag }) ∧ r.op = .wbDirty ∧ lcFind c (sliceOf c r.line)
      r.line = some w ∧ (homeLoc c r.line w).use = .budgeted ∧ (lcDirtyWays c (sliceOf c r.line) (lcSet r.line) .budgeted).length <
      lcL c (sliceOf c r.line) (lcSet r.line)))) ∧
    (∃ (s : State) (c : Core) (r : Req) (w : Nat) (v : Nat) (j : Nat) (i : Instr), s.core = c ∧ On s ∧ QuietHome c r ∧ sfView c
      (sliceOf c r.line) r.line = .excl v j ∧ sharerIdx r.rid = some j ∧ ((i = .evictClean (.moving { src := r.src, tag := r.tag })
      ∧ r.op = .evictClean) ∨ (i = .wbDirty (.moving { src := r.src, tag := r.tag }) ∧ r.op = .wbDirty ∧ lcFind c (sliceOf c r.line)
      r.line = some w ∧ (homeLoc c r.line w).use = .budgeted ∧ (lcDirtyWays c (sliceOf c r.line) (lcSet r.line) .budgeted).length <
      lcL c (sliceOf c r.line) (lcSet r.line))) ∧ i = .wbDirty (.moving { src := 66, tag := 0 })) :=
  ⟨⟨{ rdy with
      core := { homeC (hReq .evictClean) (hLoc .budgeted) with
                arr := { lc := [(0, hLoc .budgeted)], sfHome := [(0, sfMk (entExcl 0 0))] } } }, _, hReq .evictClean, 0, 0, 0,
    .evictClean (.moving { src := 66, tag := 0 }), rfl, by decide +kernel⟩,
   ⟨{ rdy with
      core := { homeC (hReq .wbDirty) (hLoc .budgeted) with arr := { lc := [(0, hLoc .budgeted)], sfHome := [(0, sfMk (entExcl 0 0))] } } },
    _, hReq .wbDirty, 0, 0, 0, .wbDirty (.moving { src := 66, tag := 0 }), rfl, by decide +kernel⟩⟩

theorem witness_RemoteReservationsRefused :
    (∃ (s : State) (c : Core) (n : Fin 8) (f : Flit), s.core = c ∧ (On s ∧ DirectTakes c n ∧ NoFlip c ∧ fate [0] f = .good ∧ statBad
      f = false ∧ fReg f = false) ∧ (fMsg f = some .loadRes ∨ fMsg f = some .storeCond) ∧ dTagUsed (dpGet c n) (fTag f) = false ∧
      dOut (dpGet c n) < 256 ∧ instOk c (fLine f) = true ∧ isLocal c (fLine f) = false ∧ CanSend (dpGet c n).outq (dpGet c
      n).credits (if fMsg f = some .loadRes then 3 else 2)) ∧
    (∃ (s : State) (c : Core) (n : Fin 8) (f : Flit), s.core = c ∧ (On s ∧ DirectTakes c n ∧ NoFlip c ∧ fate [0] f = .good ∧ statBad
      f = false ∧ fReg f = false) ∧ ((fMsg f = some .loadRes ∨ fMsg f = some .storeCond) ∧ dTagUsed (dpGet c n) (fTag f) = false ∧
      dOut (dpGet c n) < 256 ∧ instOk c (fLine f) = true ∧ isLocal c (fLine f) = false ∧ CanSend (dpGet c n).outq (dpGet c
      n).credits (if fMsg f = some .loadRes then 3 else 2)) ∧ f = encFlit { msg := .storeCond, tag := 4095, line := 2 ^ 42, dv := true, be := 1 }) :=
  ⟨⟨{ rdy with core := { rdyC with dom := { members := 3 } } }, _, 0,
    encFlit { msg := .loadRes, tag := 4095, line := 2 ^ 42, dv := false, be := 1 }, rfl, by decide +kernel, by decide +kernel⟩,
   ⟨{ rdy with core := { rdyC with dom := { members := 3 } } }, _, 0,
    encFlit { msg := .storeCond, tag := 4095, line := 2 ^ 42, dv := true, be := 1 }, rfl, by decide +kernel, by decide +kernel,
    by decide +kernel⟩⟩

theorem witness_SnoopAnswersReachTracker :
    (∃ (s : State) (c : Core) (p : Fin 16) (f : Flit) (m : Msg) (q : PortSnoop) (t : Trk) (sn : Snoop) (i : Instr), s.core = c ∧ (On
      s ∧ CanTake c p (fClass f) ∧ NoFlip c ∧ fate [0, 2, 3, 4] f = .good ∧ statBad f = false ∧ fMsg f = some m) ∧ ((cpGet c
      p).snoops.find? (fun y => y.agent == cRid p f && y.line == fLine f && y.trk == fTag f) = some q ∧ crossing (cpGet c p) (cRid p
      f) (fLine f) = false ∧ q.phys < 1000 ∧ c.out.contains q.phys = false ∧ trkAns c (fLine f) (fTag f) = some t ∧ t.snoops.find?
      (fun y => y.who == cRid p f) = some sn) ∧ (Calm c ∧ t.st = .gather ∧ t.passed = true ∧ t.fwd = none ∧ t.newEnt = none ∧
      t.snoops.erase sn ≠ []) ∧ ((i = .snpResp (.cport p f) ∧ m = .snpResp ∧ Msg.isFwd sn.msg = false ∧ (fGst f = .i → sn.msg =
      .snpInval ∨ t.holder ≠ some (cRid p f))) ∨ (i = .fwdDone (.cport p f) ∧ m = .fwdDone))) ∧
    (∃ (s : State) (c : Core) (p : Fin 16) (f : Flit) (m : Msg) (q : PortSnoop) (t : Trk) (sn : Snoop) (i : Instr), s.core = c ∧ (On
      s ∧ CanTake c p (fClass f) ∧ NoFlip c ∧ fate [0, 2, 3, 4] f = .good ∧ statBad f = false ∧ fMsg f = some m) ∧ ((cpGet c
      p).snoops.find? (fun y => y.agent == cRid p f && y.line == fLine f && y.trk == fTag f) = some q ∧ crossing (cpGet c p) (cRid p
      f) (fLine f) = false ∧ q.phys < 1000 ∧ c.out.contains q.phys = false ∧ trkAns c (fLine f) (fTag f) = some t ∧ t.snoops.find?
      (fun y => y.who == cRid p f) = some sn) ∧ (Calm c ∧ t.st = .gather ∧ t.passed = true ∧ t.fwd = none ∧ t.newEnt = none ∧
      t.snoops.erase sn ≠ []) ∧ ((i = .snpResp (.cport p f) ∧ m = .snpResp ∧ Msg.isFwd sn.msg = false ∧ (fGst f = .i → sn.msg =
      .snpInval ∨ t.holder ≠ some (cRid p f))) ∨ (i = .fwdDone (.cport p f) ∧ m = .fwdDone)) ∧ i = .fwdDone (.cport 0 (encFlit { msg := .fwdDone }))) ∧
    (∃ (s : State) (c : Core) (p : Fin 16) (f : Flit) (m : Msg) (q : PortSnoop) (t : Trk) (sn : Snoop), s.core = c ∧ (On s ∧ CanTake
      c p (fClass f) ∧ NoFlip c ∧ fate [0, 2, 3, 4] f = .good ∧ statBad f = false ∧ fMsg f = some m) ∧ ((cpGet c p).snoops.find?
      (fun y => y.agent == cRid p f && y.line == fLine f && y.trk == fTag f) = some q ∧ crossing (cpGet c p) (cRid p f) (fLine f) =
      false ∧ q.phys < 1000 ∧ c.out.contains q.phys = false ∧ trkAns c (fLine f) (fTag f) = some t ∧ t.snoops.find? (fun y => y.who
      == cRid p f) = some sn) ∧ (Calm c ∧ t.st = .gather ∧ t.passed = true ∧ t.fwd = none ∧ t.newEnt = none ∧ t.snoops.erase sn ≠
      []) ∧ m = .snpRespData ∧ storeRoom (cpGet c p) 3 = true ∧ q.phys = t.phys ∧ t.mirrors = 0 ∧ c.fab.holdN.contains (recRef (cRid
      p f) q.phys (fTag f)) = false ∧ (isWhole t = true ∧ t.stat.isErr = false ∨ fDirty f = false ∧ (lcFind c t.slice
      t.req.line).isSome = true)) ∧
    (∃ (s : State) (c : Core) (p : Fin 16) (f : Flit) (m : Msg) (q : PortSnoop) (t : Trk) (sn : Snoop) (w : _), s.core = c ∧ (On s ∧
      CanTake c p (fClass f) ∧ NoFlip c ∧ fate [0, 2, 3, 4] f = .good ∧ statBad f = false ∧ fMsg f = some m) ∧ ((cpGet c
      p).snoops.find? (fun y => y.agent == cRid p f && y.line == fLine f && y.trk == fTag f) = some q ∧ crossing (cpGet c p) (cRid p
      f) (fLine f) = false ∧ q.phys < 1000 ∧ c.out.contains q.phys = false ∧ trkAns c (fLine f) (fTag f) = some t ∧ t.snoops.find?
      (fun y => y.who == cRid p f) = some sn) ∧ (Calm c ∧ t.st = .gather ∧ t.passed = true ∧ t.fwd = none ∧ t.newEnt = none ∧
      t.snoops.erase sn ≠ []) ∧ (m = .snpRespData ∧ storeRoom (cpGet c p) 3 = true ∧ q.phys = t.phys ∧ fDirty f = true ∧ isWhole t =
      false ∧ t.slice = sliceOf c t.req.line) ∧ lcFind c t.slice t.req.line = some w ∧ (homeLoc c t.req.line w).use = .budgeted ∧
      (lcDirtyWays c t.slice (lcSet t.req.line) .budgeted).length < lcL c t.slice (lcSet t.req.line)) :=
  ⟨⟨{ rdy with
      core := { rdyC with
                cport := [(0, { inCrd := crd, snoops := [{ agent := 0, line := 0, phys := 0, trk := 0 }] })]
                arr := { trk := [{ trk0 with
                                   snoops := [{ who := 0, msg := .snpInval, t0 := 0 }, { who := 1, msg := .snpInval, t0 := 0 }] }] } } },
    _, 0, encFlit { msg := .snpResp }, .snpResp, { agent := 0, line := 0, phys := 0, trk := 0 },
    { trk0 with snoops := [{ who := 0, msg := .snpInval, t0 := 0 }, { who := 1, msg := .snpInval, t0 := 0 }] },
    { who := 0, msg := .snpInval, t0 := 0 }, .snpResp (.cport 0 (encFlit { msg := .snpResp })), rfl, by decide +kernel, by decide +kernel,
    by decide +kernel, by decide +kernel⟩,
   ⟨{ rdy with
      core := { rdyC with
                cport := [(0, { inCrd := crd, snoops := [{ agent := 0, line := 0, phys := 0, trk := 0 }] })]
                arr := { trk := [{ trk0 with
                                   snoops := [{ who := 0, msg := .snpFwdUnique, t0 := 0 }, { who := 1, msg := .snpInval, t0 := 0 }] }] } } },
    _, 0, encFlit { msg := .fwdDone }, .fwdDone, { agent := 0, line := 0, phys := 0, trk := 0 },
    { trk0 with snoops := [{ who := 0, msg := .snpFwdUnique, t0 := 0 }, { who := 1, msg := .snpInval, t0 := 0 }] },
    { who := 0, msg := .snpFwdUnique, t0 := 0 }, .fwdDone (.cport 0 (encFlit { msg := .fwdDone })), rfl, by decide +kernel,
    by decide +kernel, by decide +kernel, by decide +kernel⟩,
   ⟨{ rdy with
      core := { rdyC with
                cport := [(0, { inCrd := crd, snoops := [{ agent := 0, line := 0, phys := 0, trk := 0 }] })]
                arr := { trk := [{ trk0 with
                                   snoops := [{ who := 0, msg := .snpUnique, t0 := 0 }, { who := 1, msg := .snpInval, t0 := 0 }] }]
                         lc := [(0, (hLoc .clean))] } } }, _, 0, encFlit { msg := .snpRespData, dv := true, be := beAll, data := 9 },
    .snpRespData, { agent := 0, line := 0, phys := 0, trk := 0 },
    { trk0 with snoops := [{ who := 0, msg := .snpUnique, t0 := 0 }, { who := 1, msg := .snpInval, t0 := 0 }] },
    { who := 0, msg := .snpUnique, t0 := 0 }, rfl, by decide +kernel, by decide +kernel, by decide +kernel, by decide +kernel⟩,
   ⟨{ rdy with
      core := { rdyC with
                cport := [(0, { inCrd := crd, snoops := [{ agent := 0, line := 0, phys := 0, trk := 0 }] })]
                arr := { trk := [{ trk0 with
                                   snoops := [{ who := 0, msg := .snpUnique, t0 := 0 }, { who := 1, msg := .snpInval, t0 := 0 }] }]
                         lc := [(0, (hLoc .budgeted))] } } }, _, 0,
    encFlit { msg := .snpRespData, dirty := true, dv := true, be := beAll, data := 9 }, .snpRespData,
    { agent := 0, line := 0, phys := 0, trk := 0 },
    { trk0 with snoops := [{ who := 0, msg := .snpUnique, t0 := 0 }, { who := 1, msg := .snpInval, t0 := 0 }] },
    { who := 0, msg := .snpUnique, t0 := 0 }, 0, rfl, by decide +kernel, by decide +kernel, by decide +kernel, by decide +kernel,
    by decide +kernel⟩⟩

theorem witness_CompletionsAndAcks :
    (∃ (s : State) (c : Core) (p : Fin 16) (tag : Nat) (x : Cmp) (g : Tag), s.core = c ∧ (On s ∧ portsUp c = true ∧ NoFlip c ∧
      (cpGet c p).closed = false ∧ (cpGet c p).inq = [] ∧ cmpFor c (epC p) tag = some x) ∧ ((cpGet c p).tags.find? (fun t => t.tag
      == tag) = some g ∧ g.phase = .opened ∧ g.dead = false ∧ g.req.op.isWb = false ∧ x.stat.isErr = false ∧ CanSend (cpGet c
      p).outq (cpGet c p).credits (if x.data.isSome then 3 else 2)) ∧ x.data.isSome = true ∧ (c.fab.cmps.filter (fun y => y ==
      x)).length = 1) ∧
    (∃ (s : State) (c : Core) (p : Fin 16) (tag : Nat) (x : Cmp) (g : Tag), s.core = c ∧ (On s ∧ portsUp c = true ∧ NoFlip c ∧
      (cpGet c p).closed = false ∧ (cpGet c p).inq = [] ∧ cmpFor c (epC p) tag = some x) ∧ (cpGet c p).tags.find? (fun t => t.tag ==
      tag) = some g ∧ g.phase = .opened ∧ g.dead = false ∧ g.req.op.isWb = false ∧ x.stat.isErr = false ∧ CanSend (cpGet c p).outq
      (cpGet c p).credits (if x.data.isSome then 3 else 2)) ∧
    (∃ (s : State) (c : Core) (p : Fin 16) (tag : Nat) (x : Cmp) (g : Tag), s.core = c ∧ (On s ∧ portsUp c = true ∧ NoFlip c ∧
      (cpGet c p).closed = false ∧ (cpGet c p).inq = [] ∧ cmpFor c (epC p) tag = some x) ∧ ((cpGet c p).tags.find? (fun t => t.tag
      == tag) = some g ∧ g.phase = .opened ∧ g.dead = false ∧ g.req.op.isWb = false ∧ x.stat.isErr = false ∧ CanSend (cpGet c
      p).outq (cpGet c p).credits (if x.data.isSome then 3 else 2)) ∧ x = { dst := 66, tag := 0, data := none, ackreq := false }) ∧
    (∃ (s : State) (c : Core) (p : Fin 16) (q : Fin 16) (f : Flit) (g : Tag) (st : Stat), s.core = c ∧ (On s ∧ CanTake c p 3 ∧
      NoFlip c ∧ fate [0, 2, 3, 4] f = .good ∧ fMsg f = some .cmpData ∧ codeStat (fStat f) = some st) ∧ (st.isErr = false ∧ fRid f /
      4 = q ∧ (cpGet c q).closed = false ∧ (cpGet c q).tags.find? (fun t => t.tag == fTag f && t.req.rid == fRid f && t.phase !=
      .ackWait && !t.req.op.isWb) = some g ∧ g.phase = .opened ∧ g.dead = false) ∧ CanSend (cpGet c q).outq (cpGet c q).credits 3) ∧
    (∃ (s : State) (c : Core) (p : Fin 16) (f : Flit) (g : Tag) (u : Trk), s.core = c ∧ (On s ∧ CanTake c p 2 ∧ NoFlip c ∧ fate [0,
      2, 3, 4] f = .good ∧ statBad f = false ∧ fMsg f = some .ack) ∧ ((cpGet c p).tags.find? (fun t => t.phase == .ackWait &&
      t.req.rid == cRid p f && t.utag == fTag f) = some g ∧ isLocal c g.req.line = true ∧ c.arr.trk = [u] ∧ Restful c ∧ u.Clear c ∧
      ackedAll u = true) ∧ u.req.src = g.req.src ∧ u.req.tag = g.req.tag ∧ u.second = false ∧ u.passed = true ∧ u.st = .ackWait ∧
      (u.cmpSent || u.forwarded) = true) :=
  ⟨⟨{ rdy with
      core := { rdyC with
                cport := [(0, { credits := crd, inCrd := crd, tags := [{ tag := 0, req := hReq .rdShared, utag := 5, t0 := 0 }] })]
                fab := { cmps := [{ dst := 66, tag := 0, data := some 7, ackreq := true }] } } }, _, 0, 0,
    { dst := 66, tag := 0, data := some 7, ackreq := true }, { tag := 0, req := hReq .rdShared, utag := 5, t0 := 0 }, rfl,
    by decide +kernel, by decide +kernel, by decide +kernel⟩,
   ⟨{ rdy with
      core := { rdyC with
                cport := [(0, { credits := crd, inCrd := crd, tags := [{ tag := 0, req := hReq .rdShared, utag := 5, t0 := 0 }] })]
                fab := { cmps := [{ dst := 66, tag := 0, data := some 7, ackreq := true }] } } }, _, 0, 0,
    { dst := 66, tag := 0, data := some 7, ackreq := true }, { tag := 0, req := hReq .rdShared, utag := 5, t0 := 0 }, rfl,
    by decide +kernel, by decide +kernel⟩,
   ⟨{ rdy with
      core := { rdyC with
                cport := [(0, { credits := crd, inCrd := crd, tags := [{ tag := 0, req := hReq .rdShared, utag := 5, t0 := 0 }] })]
                fab := { cmps := [{ dst := 66, tag := 0, data := none, ackreq := false }] } } }, _, 0, 0,
    { dst := 66, tag := 0, data := none, ackreq := false }, { tag := 0, req := hReq .rdShared, utag := 5, t0 := 0 }, rfl,
    by decide +kernel, by decide +kernel, by decide +kernel⟩,
   ⟨{ rdy with
      core := { rdyC with
                cport := [(1, { inCrd := crd }),
                          (0, { credits := crd, inCrd := crd, tags := [{ tag := 0, req := hReq .rdShared, utag := 5, t0 := 0 }] })] } }, _,
    1, 0, encFlit { msg := .cmpData, dv := true, be := beAll, data := 9, gst := .e },
    { tag := 0, req := hReq .rdShared, utag := 5, t0 := 0 }, .ok, rfl, by decide +kernel, by decide +kernel, by decide +kernel⟩,
   ⟨{ rdy with
      core := { rdyC with
                cport := [(0, { inCrd := crd, tags := [{ tag := 0, req := hReq .rdShared, utag := 5, t0 := 0, phase := .ackWait }] })]
                arr := { trk := [{ trk0 with req := hReq .rdShared, st := .ackWait, cmpSent := true }] } } }, _, 0,
    encFlit { msg := .ack, tag := 5 }, { tag := 0, req := hReq .rdShared, utag := 5, t0 := 0, phase := .ackWait },
    { trk0 with req := hReq .rdShared, st := .ackWait, cmpSent := true }, rfl, by decide +kernel, by decide +kernel, by decide +kernel⟩⟩

theorem witness_CreditsAndHoldNotices :
    (∃ (s : State) (c : Core) (p : Fin 16), s.core = c ∧ On s ∧ portsUp c = true ∧ (cpGet c p).closed = false ∧ (cpGet c
      p).credits.length = 6 ∧ (cpGet c p).outq = []) ∧
    (∃ (s : State) (c : Core) (p : Fin 16) (k : Fin 6) (f : OutFlit), s.core = c ∧ (On s ∧ portsUp c = true ∧ (cpGet c p).closed =
      false ∧ (cpGet c p).credits.length = 6 ∧ (cpGet c p).outq = [f] ∧ msgCls f.msg = k) ∧ credit (cpGet c p).credits k = 0) ∧
    (∃ (s : State) (c : Core) (n : Fin 8), s.core = c ∧ On s ∧ portsUp c = true ∧ (dpGet c n).closed = false ∧ (dpGet c n).outq =
      []) ∧
    (∃ (s : State) (c : Core) (b : Fin 16), s.core = c ∧ On s ∧ (bpGet c b).closed = false) ∧
    (∃ (s : State) (c : Core) (p : Fin 16) (tag : Nat), s.core = c ∧ On s ∧ (cpGet c p).inq = [] ∧ c.fab.holdN.contains { src := epC p, tag := tag }
      = true) :=
  ⟨⟨rdy, _, 0, rfl, by decide +kernel⟩,
   ⟨{ rdy with core := { rdyC with cport := [(0, { outq := [{ msg := .cmp }] })] } }, _, 0, 2, { msg := .cmp }, rfl, by decide +kernel,
    by decide +kernel⟩,
   ⟨rdy, _, 7, rfl, by decide +kernel⟩,
   ⟨rdy, _, 15, rfl, by decide +kernel⟩,
   ⟨{ rdy with
      core := { rdyC with
                fab := { holdN := [{ src := 66, tag := 0 }] }
                cport := [(0, { tags := [{ tag := 0, req := hReq .wbDirty, utag := 5, t0 := 0, held := true }] })] } }, _, 0, 0, rfl,
    by decide +kernel⟩⟩

theorem witness_TimeoutsExpire :
    (∃ (s : State) (c : Core) (p : Fin 16) (tag : Nat) (g : Tag), s.core = c ∧ (On s ∧ portsUp c = true ∧ (cpGet c p).closed = false
      ∧ tag < 1024 ∧ (cpGet c p).tags.find? (fun t => t.tag == tag && t.phase == .opened) = some g ∧ g.dead = false) ∧ g.t0 + reqTmo
      c ≤ now c ∧ isLocal c g.req.line = true ∧ NoFlip c ∧ CanSend (cpGet c p).outq (cpGet c p).credits (if readMsg (opMsg g.req.op)
      then 3 else 2)) ∧
    (∃ (s : State) (c : Core) (h : Fin 32) (k : Nat) (a : Fin 64) (u : Trk), s.core = c ∧ (On s ∧ trkGet c h k = some u ∧
      (u.snoops.any (fun x => x.who == a.val && decide (x.t0 + snpTmo c ≤ now c))) = true ∧ u.holder ≠ some a.val ∧ attachedOf u a =
      false ∧ trkAns c u.req.line k = some u) ∧ (Calm c ∧ u.st = .gather ∧ u.passed = true ∧ u.fwd = none ∧ u.newEnt = none ∧
      u.snoops.filter (fun x => x.who != a.val) ≠ []) ∧ u.req.op ≠ .rdShared) ∧
    (∃ (s : State) (c : Core) (b : Fin 16) (tag : Nat) (r : Read) (u : Trk), s.core = c ∧ (On s ∧ NoFlip c ∧ tag < 0x400 ∧
      c.reads.find? (fun r => r.port == b.val && (r.st == .out || r.st == .held) && r.tag == tag) = some r ∧ r.st = .out ∧ r.t0 +
      beRdTmo c b ≤ now c) ∧ (c.arr.trk = [u] ∧ u.slice = r.slice ∧ u.idx = r.trk ∧ u.fill = .out r.sn ∧ u.data = none ∧ u.req.op =
      .rdOnce) ∧ (isDirect u.req = false ∧ u.passed = true ∧ u.st = .gather ∧ gathering u = false ∧ u.dirtyIn = none ∧ u.lateFilter
      = false) ∧ (ackedAll u = true ∧ u.second = false ∧ u.wbs = [] ∧ u.mate = none ∧ u.forwarded = false ∧ u.cmpSent = false) ∧
      (u.stat = .ok ∧ u.grant = .i ∧ u.bundle = none ∧ u.leave = [] ∧ c.ending = false ∧ Restful c) ∧ c.keyNext = [] ∧ dirtyLoc c
      u.req.line = none) ∧
    (∃ (s : State) (c : Core) (b : Fin 16) (tag : Nat) (x : Bundle) (y : BLine), s.core = c ∧ (On s ∧ NoFlip c ∧ bundleOf c b tag =
      some x ∧ x.t0 + beWrTmo c ≤ now c ∧ x.lines = [y] ∧ stillIn c x y.line = true) ∧ (c.bundles.map (fun z => z.id)).Nodup ∧
      c.keyNext = [] ∧ Calm c) :=
  ⟨⟨{ rdy with
      core := { rdyC with
                tick := 0x40000000
                cport := [(0, { credits := crd, inCrd := crd, tags := [{ tag := 0, req := hReq .rdShared, utag := 5, t0 := 0 }] })] } }, _,
    0, 0, { tag := 0, req := hReq .rdShared, utag := 5, t0 := 0 }, rfl, by decide +kernel, by decide +kernel⟩,
   ⟨{ rdy with
      core := { rdyC with
                tick := 0x40000000
                arr := { trk := [{ trk0 with
                                   snoops := [{ who := 0, msg := .snpInval, t0 := 0 }, { who := 1, msg := .snpInval, t0 := 0 }] }] } } },
    _, 0, 0, 0, { trk0 with snoops := [{ who := 0, msg := .snpInval, t0 := 0 }, { who := 1, msg := .snpInval, t0 := 0 }] }, rfl,
    by decide +kernel, by decide +kernel, by decide +kernel⟩,
   ⟨{ rdy with
      core := { rdyC with
                tick := 0x40000000
                reads := [{ read0 with way := none }]
                arr := { trk := [{ trk0 with req := hReq .rdOnce, fill := .out 0 }] } } }, _, 0, 0, { read0 with way := none },
    { trk0 with req := hReq .rdOnce, fill := .out 0 }, rfl, by decide +kernel, by decide +kernel, by decide +kernel, by decide +kernel,
    by decide +kernel, by decide +kernel⟩,
   ⟨{ rdy with
      core := { rdyC with tick := 0x40000000, bundles := [bun0], arr := { lc := [(0, { hLoc .budgeted with bundle := some 0 })] } } }, _,
    0, 0x800, bun0, { line := 0, data := 5, poison := false }, rfl, by decide +kernel, by decide +kernel⟩⟩

theorem witness_PartnerActs :
    (∃ (s : State) (c : Core) (h : Fin 32) (k : Nat) (w : Nat) (m : MirW), s.core = c ∧ On s ∧ NoFlip c ∧ c.fab.mirW.find? (fun m =>
      m.slice == h.val && m.trk == k) = some m ∧ mirFind c h m.line = some w ∧ lcDisabled c (physOf c (partnerOf h)) m.set w = false
      ∧ m.set = lcSet m.line) ∧
    (∃ (s : State) (c : Core) (h : Fin 32) (k : Nat) (w : Nat) (m : MirW), s.core = c ∧ On s ∧ NoFlip c ∧ c.fab.mirW.find? (fun m =>
      m.slice == h.val && m.trk == k) = some m ∧ mirFind c h m.line = some w ∧ lcDisabled c (physOf c (partnerOf h)) m.set w = false
      ∧ m.set = lcSet m.line) ∧
    (∃ (s : State) (c : Core) (h : Fin 32) (k : Nat) (w : Nat) (m : MirW) (v : _), s.core = c ∧ (On s ∧ NoFlip c ∧ c.fab.mirW.find?
      (fun m => m.slice == h.val && m.trk == k) = some m ∧ mirFind c h m.line = some w ∧ lcDisabled c (physOf c (partnerOf h)) m.set
      w = false ∧ m.set = lcSet m.line) ∧ (lcPickBut (lcFailed c (physOf c (partnerOf h)) m.set w) (physOf c (partnerOf h)) m.line
      (some w)).1 = some v) ∧
    (∃ (s : State) (c : Core) (h : Fin 32) (k : Nat) (m : FiltW), s.core = c ∧ On s ∧ c.fab.filtW.find? (fun m => m.slice == h.val
      && m.trk == k) = some m) ∧
    (∃ (s : State) (c : Core) (h : Fin 32) (line : Nat) (w : Nat), s.core = c ∧ On s ∧ c.fab.mirRel.contains (h.val, line) = true ∧
      mirFind c h line = some w ∧ dirtyLoc c line = none ∧ c.fab.mirW.any (fun m => m.line == line) = false) ∧
    (∃ (s : State) (c : Core) (h : Fin 32) (k : Nat), s.core = c ∧ On s ∧ c.fab.closeN.contains (h.val, k) = true) ∧
    (∃ (s : State) (c : Core) (h : Fin 32) (k : Nat) (ph : Nat) (cs : Nat) (w : Nat) (l : Loc) (u : Trk), s.core = c ∧ (On s ∧
      c.fab.mirA.contains (h.val, k) = true ∧ trkGet c h k = some u ∧ u.mirrors = 1 ∧ u.fcopies ≠ 0 ∧ u.passed = true) ∧ u.st =
      .mirror ∧ Calm c ∧ dirtyLoc c u.req.line = some (ph, cs, w, l)) ∧
    (∃ (s : State) (c : Core) (h : Fin 32) (k : Nat) (u : Trk), s.core = c ∧ (On s ∧ c.fab.filtA.contains (h.val, k) = true ∧ trkGet
      c h k = some u ∧ u.mirrors ≠ 0 ∧ u.passed = true ∧ u.st = .mirror) ∧ Calm c) :=
  ⟨⟨{ rdy with
      core := { rdyC with
                arr := { lc := [(32768, hLoc .mirror)] }
                fab := { mirW := [{ slice := 0, trk := 0, set := 0, hway := 0, line := 0, data := 9, poison := false, transit := false }] } } },
    _, 0, 0, 0, { slice := 0, trk := 0, set := 0, hway := 0, line := 0, data := 9, poison := false, transit := false }, rfl,
    by decide +kernel⟩,
   ⟨{ rdy with
      core := { rdyC with
                arr := { lc := [(32768, hLoc .mirror)] }
                fab := { mirW := [{ slice := 0, trk := 0, set := 0, hway := 0, line := 0, data := 9, poison := false, transit := false }] } } },
    _, 0, 0, 0, { slice := 0, trk := 0, set := 0, hway := 0, line := 0, data := 9, poison := false, transit := false }, rfl,
    by decide +kernel⟩,
   ⟨{ rdy with
      core := { rdyC with
                arr := { lc := [(32768, hLoc .mirror)] }
                fab := { mirW := [{ slice := 0, trk := 0, set := 0, hway := 0, line := 0, data := 9, poison := false, transit := false }] } } },
    _, 0, 0, 0, { slice := 0, trk := 0, set := 0, hway := 0, line := 0, data := 9, poison := false, transit := false }, 1, rfl,
    by decide +kernel, by decide +kernel⟩,
   ⟨{ rdy with
      core := { rdyC with arr := { trk := [trk0] }, fab := { filtW := [{ slice := 0, trk := 0, set := 4095, way := 15, word := {} }] } } },
    _, 0, 0, { slice := 0, trk := 0, set := 4095, way := 15, word := {} }, rfl, by decide +kernel⟩,
   ⟨{ rdy with core := { rdyC with arr := { lc := [(32768, hLoc .mirror)] }, fab := { mirRel := [(0, 0)] } } }, _, 0, 0, 0, rfl,
    by decide +kernel⟩,
   ⟨{ rdy with core := { rdyC with arr := { changes := [{ slice := 0, trk := 0, lines := [0] }] }, fab := { closeN := [(0, 0)] } } }, _, 0,
    0, rfl, by decide +kernel⟩,
   ⟨{ rdy with
      core := { rdyC with
                arr := { trk := [{ trk0 with st := .mirror, data := some 9, mirrors := 1, fcopies := 1 }]
                         lc := [(0, { hLoc .budgeted with mirrored := false })] }
                fab := { mirA := [(0, 0)] } } }, _, 0, 0, 0, 0, 0, { hLoc .budgeted with mirrored := false },
    { trk0 with st := .mirror, data := some 9, mirrors := 1, fcopies := 1 }, rfl, by decide +kernel, by decide +kernel⟩,
   ⟨{ rdy with
      core := { rdyC with
                arr := { trk := [{ trk0 with st := .mirror, data := some 9, mirrors := 1, fcopies := 1 }] }
                fab := { filtA := [(0, 0)] } } }, _, 0, 0, { trk0 with st := .mirror, data := some 9, mirrors := 1, fcopies := 1 }, rfl,
    by decide +kernel, by decide +kernel⟩⟩

theorem witness_SetRecovery :
    (∃ (s : State) (c : Core) (h : Fin 32) (x : Fin 4096), s.core = c ∧ On s ∧ copyPending c h x = false) ∧
    (∃ (s : State) (c : Core) (h : Fin 32) (x : Fin 4096) (r : SetRec) (l : List SfWord), s.core = c ∧ (On s ∧ NoFlip c ∧
      c.arr.setRec.find? (fun r => r.slice == h.val && r.set == x.val && r.reply.isSome) = some r ∧ r.reply = some l ∧ l.length = 16
      ∧ (∀ y ∈ l, sfWordOk c.dom.inst y = true)) ∧ c.arr.fails = [] ∧ c.arr.trk = [] ∧ Restful c) :=
  ⟨⟨{ rdy with core := { rdyC with arr := { setRec := [{ slice := 31, set := 4095 }] } } }, _, 31, 4095, rfl, by decide +kernel⟩,
   ⟨{ rdy with
      core := { rdyC with
                arr := { sfHome := [(sfKey 31 4095 15, { bits := 1 })]
                         setRec := [{ slice := 31, set := 4095, sent := true, reply := some (List.replicate 16 {}) }] } } }, _, 31, 4095,
    { slice := 31, set := 4095, sent := true, reply := some (List.replicate 16 {}) }, List.replicate 16 {}, rfl, by decide +kernel,
    by decide +kernel⟩⟩

theorem witness_VictimsAndSweeps :
    (∃ (s : State) (c : Core) (h : Fin 32) (k : Nat) (v : Nat) (a : Nat) (u : Trk), s.core = c ∧ (On s ∧ portsUp c = true ∧
      c.arr.trk = [u] ∧ Restful c ∧ c.arr.waits = [] ∧ u.Clear c) ∧ (NoFlip c ∧ u.slice = h.val ∧ u.idx = k ∧ k < 208 ∧ u.req.op ≠
      .backInval ∧ u.victim = true) ∧ (u.way = none ∧ u.passed = true ∧ u.st = .gather ∧ u.fwd = none ∧ sfFree c h (sfSet
      u.req.line) = none ∧ sfVictim c h (sfSet u.req.line) = (some v, c)) ∧ roleOf c h = .active ∧ eSharers c (sfRd c h (sfSet
      u.req.line) v).bits = [a] ∧ a < 64 ∧ (cpGet c (a / 4)).closed = false) ∧
    (∃ (s : State) (c : Core) (h : Fin 32) (x : LostSet) (n : Nat), s.core = c ∧ (On s ∧ portsUp c = true ∧ c.arr.trk = [] ∧
      c.arr.waits = [] ∧ c.ending = false ∧ Restful { c with arr := { c.arr with lost := [] } }) ∧ (NoFlip c ∧ c.arr.lost = [x] ∧
      x.slice = h.val ∧ x.covered = true ∧ x.next < 2 ^ 26 ∧ (cpGet c 0).resetIn = false) ∧ (cpGet c 0).closed = false ∧ sweepFind c
      h x.set (2 ^ 26 - x.next) x.next = some n ∧ n + 1 < 2 ^ 26 ∧ x.lastAt + 2 ^ fld (regv c (0x100420 + 0x10000 * h)) 3 0 ≤ now c) ∧
    (∃ (s : State) (c : Core) (h : Fin 32) (x : LostSet) (n : Nat), s.core = c ∧ (On s ∧ portsUp c = true ∧ c.arr.trk = [] ∧
      c.arr.waits = [] ∧ c.ending = false ∧ Restful { c with arr := { c.arr with lost := [] } }) ∧ (NoFlip c ∧ c.arr.lost = [x] ∧
      x.slice = h.val ∧ x.covered = true ∧ x.next < 2 ^ 26 ∧ (cpGet c 0).resetIn = false) ∧ (cpGet c 0).closed = false ∧ sweepFind c
      h x.set (2 ^ 26 - x.next) x.next = some n ∧ n + 1 < 2 ^ 26 ∧ now c < x.lastAt + 2 ^ fld (regv c (0x100420 + 0x10000 * h)) 3 0) :=
  ⟨⟨{ rdy with
      core := { rdyC with
                arr := { trk := [{ trk0 with victim := true }]
                         sfHome := (List.range 16).map (fun n => (n, sfMk (entExcl ((n + 1) * 2 ^ 18) 0))) } } }, _, 0, 0, 0, 0,
    { trk0 with victim := true }, rfl, by decide +kernel, by decide +kernel, by decide +kernel, by decide +kernel⟩,
   ⟨{ rdy with core := { rdyC with tick := 8, arr := { lost := [{ slice := 0, set := 0 }] } } }, _, 0, { slice := 0, set := 0 }, 0, rfl,
    by decide +kernel, by decide +kernel, by decide +kernel⟩,
   ⟨{ rdy with core := { rdyC with arr := { lost := [{ slice := 0, set := 0 }] } } }, _, 0, { slice := 0, set := 0 }, 0, rfl,
    by decide +kernel, by decide +kernel, by decide +kernel⟩⟩

theorem witness_SlotsAndReservations :
    (∃ (s : State) (c : Core) (h : Fin 32) (k : Nat) (v : Nat) (a : Nat) (u : Trk) (x : LostSet), s.core = c ∧ (On s ∧ portsUp c =
      true ∧ c.arr.trk = [u] ∧ u.slice = h.val ∧ u.idx = k ∧ u.st = .bourdon) ∧ (u.slot = false ∧ u.req.op = .rdOnce ∧ u.mate = none
      ∧ u.snoops = [] ∧ u.fwd = none ∧ u.newEnt = none) ∧ (u.gone = [] ∧ u.awaitWb = [] ∧ c.arr.lost = [x] ∧ x.slice = h.val ∧ x.set
      = sfSet u.req.line ∧ x.covered = true) ∧ (x.next < 2 ^ 26 ∧ Restful { c with arr := { c.arr with lost := [] } } ∧ u.Clear c ∧
      u.second = false ∧ sliceStops c h = false ∧ NoFlip c) ∧ (c.ending = false ∧ lineType c u.req.line = 1 ∧ (bportOf c
      u.req.line).isSome = true ∧ above16T u.req.line = false ∧ setHeld c h (sfSet u.req.line) = false ∧ sfSetOk c h (sfSet
      u.req.line) = true) ∧ (∀ p ∈ c.arr.lc, p.2.tbad = false ∧ p.2.dbad = false) ∧ c.arr.nruBad = [] ∧ sfView c h u.req.line =
      .excl v a ∧ a < 64 ∧ sharerIdx u.req.rid ≠ some a ∧ (cpGet c (a / 4)).closed = false) ∧
    (∃ (s : State) (c : Core) (h : Fin 32) (e : Fin 12) (m : Mon), s.core = c ∧ On s ∧ mfind? c.arr.mon (h.val * 12 + e.val) = some
      m ∧ m.expiry < now c) :=
  ⟨⟨{ rdy with
      core := { rdyC with
                arr := { trk := [{ trk0 with req := { hReq .rdOnce with src := 67, rid := 4 }, st := .bourdon, passed := false }]
                         lost := [{ slice := 0, set := 0 }]
                         sfHome := [(0, sfMk (entExcl 0 0))] } } }, _, 0, 0, 0, 0,
    { trk0 with req := { hReq .rdOnce with src := 67, rid := 4 }, st := .bourdon, passed := false }, { slice := 0, set := 0 }, rfl,
    by decide +kernel, by decide +kernel, by decide +kernel, by decide +kernel, by decide +kernel, by decide +kernel⟩,
   ⟨{ rdy with core := { rdyC with tick := 1, arr := { mon := [(31 * 12 + 11, { granule := 0, expiry := 0 })] } } }, _, 31, 11,
    { granule := 0, expiry := 0 }, rfl, by decide +kernel⟩⟩

theorem witness_BundlesAndReadsLeave :
    (∃ (s : State) (c : Core) (h : Fin 32) (line : Nat) (ph : Nat) (cs : Nat) (w : Nat) (b : Nat) (r : Nat) (l : Loc), s.core = c ∧
      ((c.st.cur = .ready ∨ c.st.cur = .degraded ∨ c.st.cur = .quiesced ∨ c.st.cur = .service) ∧ NoFlip c ∧ (bundleable c
      h).contains line = true ∧ dirtyLoc c line = some (ph, cs, w, l) ∧ l.dbad = false ∧ lineType c line = 1) ∧ sliceOf c line =
      h.val ∧ bportOf c line = some b ∧ rgnIndex c line = some r ∧ keyEmpty c line = false) ∧
    (∃ (s : State) (c : Core) (b : Fin 16) (tag : Nat) (m : BMsg) (r : Read) (u : Trk), s.core = c ∧ (On s ∧ NoFlip c ∧ (bpGet c
      b).closed = false ∧ c.st.cur ≠ .halt ∧ (bpGet c b).ready = true ∧ (bpGet c b).cur = none) ∧ ((bpGet c b).queue = [m] ∧ 0 <
      credit (bpGet c b).credits (msgClass m) ∧ bFreeTag c b m.isRead = some tag ∧ mfind? c.keyNext (msgSlot c m) = none ∧ slotKey c
      (msgSlot c m) ≠ .empty ∧ m.isRead = true) ∧ c.reads.find? (fun x => x.sn == m.id) = some r ∧ trkGet c r.slice r.trk = some u ∧
      u.req.rid < 96) ∧
    (∃ (s : State) (c : Core) (b : Fin 16) (n : Nat) (tag : Nat) (m : BMsg) (x : Bundle) (y : BLine), s.core = c ∧ (On s ∧ NoFlip c
      ∧ (bpGet c b).closed = false ∧ c.st.cur ≠ .halt ∧ (bpGet c b).ready = true ∧ (bpGet c b).cur = none) ∧ ((bpGet c b).queue =
      [m] ∧ 0 < credit (bpGet c b).credits (msgClass m) ∧ bFreeTag c b m.isRead = some tag ∧ mfind? c.keyNext (msgSlot c m) = none ∧
      slotKey c (msgSlot c m) ≠ .empty ∧ m.isRead = false) ∧ (bunGet c m.id = some x ∧ x.lines = [y] ∧ x.st = .formed ∧ x.tag = none
      ∧ x.sentFlits = 0 ∧ x.trk = none) ∧ inOrder c m = true ∧ 0 < n) :=
  ⟨⟨{ rdy with core := { rdyC with arr := { lc := [(0, hLoc .budgeted)] } } }, _, 0, 0, 0, 0, 0, 0, 0, hLoc .budgeted, rfl,
    by decide +kernel, by decide +kernel⟩,
   ⟨{ rdy with
      core := { rdyC with
                arr := { trk := [trk0] }
                reads := [{ read0 with st := .queued }]
                bport := [(0, { ready := true, credits := crd, inCrd := crd, queue := [{ rq := 0, isRead := true, id := 0, t0 := 0 }] })] } },
    _, 0, 0, { rq := 0, isRead := true, id := 0, t0 := 0 }, { read0 with st := .queued }, trk0, rfl, by decide +kernel, by decide +kernel,
    by decide +kernel⟩,
   ⟨{ rdy with
      core := { rdyC with
                bundles := [{ bun0 with st := .formed, tag := none }]
                bport := [(0, { ready := true, credits := crd, inCrd := crd, queue := [{ rq := 1, isRead := false, id := 0, t0 := 0 }] })] } },
    _, 0, 1, 0x800, { rq := 1, isRead := false, id := 0, t0 := 0 }, { bun0 with st := .formed, tag := none },
    { line := 0, data := 5, poison := false }, rfl, by decide +kernel, by decide +kernel, by decide +kernel, by decide +kernel⟩⟩

theorem witness_ArbitersCharge :
    (∃ (s : State) (c : Core) (b : Fin 16), s.core = c ∧ On s ∧ windowOver c b = true) ∧
    (∃ (s : State) (c : Core) (b : Fin 16), s.core = c ∧ On s ∧ windowOver c b = false) ∧
    (∃ (s : State) (c : Core) (h : Fin 33) (k : Fin 8) (l : List (Fin 6)) (w : Fin 6) (u : Option (Fin 6)), s.core = c ∧ (On s ∧
      l.Nodup ∧ w ∈ l ∧ (s.sag.debugOpen ≠ 0 ∨ 5 ∉ l) ∧ (bankGet c h k).resume = none ∧ (u = none ∨ (bankGet c h k).urgent = true ∧
      0 ∈ l)) ∧ (if (bankGet c h k).lost = true ∧ 0 ∈ l then w = 0 else ∀ n ∈ l, n ≠ w → (mget c.arb (bankKey h n) {}).credit <
      (mget c.arb (bankKey h w) {}).credit ∨ (mget c.arb (bankKey h n) {}).credit = (mget c.arb (bankKey h w) {}).credit ∧ w < n)) ∧
    (∃ (s : State) (c : Core) (h : Fin 33) (k : Fin 8) (l : List (Fin 6)) (w : Fin 6) (u : Option (Fin 6)), s.core = c ∧ (On s ∧
      l.Nodup ∧ w ∈ l ∧ (s.sag.debugOpen ≠ 0 ∨ 5 ∉ l) ∧ (bankGet c h k).resume = none ∧ (u = none ∨ (bankGet c h k).urgent = true ∧
      0 ∈ l)) ∧ (if (bankGet c h k).lost = true ∧ 0 ∈ l then w = 0 else ∀ n ∈ l, n ≠ w → (mget c.arb (bankKey h n) {}).credit <
      (mget c.arb (bankKey h w) {}).credit ∨ (mget c.arb (bankKey h n) {}).credit = (mget c.arb (bankKey h w) {}).credit ∧ w < n) ∧
      l = [2, 4, 0]) ∧
    (∃ (s : State) (c : Core) (h : Fin 33) (k : Fin 8) (l : List (Fin 6)) (w : Fin 6) (u : Option (Fin 6)), s.core = c ∧ (On s ∧
      l.Nodup ∧ w ∈ l ∧ (s.sag.debugOpen ≠ 0 ∨ 5 ∉ l) ∧ (bankGet c h k).resume = none ∧ (u = none ∨ (bankGet c h k).urgent = true ∧
      0 ∈ l)) ∧ (if (bankGet c h k).lost = true ∧ 0 ∈ l then w = 0 else ∀ n ∈ l, n ≠ w → (mget c.arb (bankKey h n) {}).credit <
      (mget c.arb (bankKey h w) {}).credit ∨ (mget c.arb (bankKey h n) {}).credit = (mget c.arb (bankKey h w) {}).credit ∧ w < n) ∧
      l = [2, 4, 0]) ∧
    (∃ (s : State) (c : Core) (h : Fin 33) (k : Fin 8) (l : List (Fin 6)), s.core = c ∧ On s ∧ 3 ∈ l ∧ ((bankGet c h k).urgent =
      false ∨ 0 ∉ l)) :=
  ⟨⟨{ rdy with
      core := { rdyC with tick := 0x100000, arb := [(bankKey 32 5, { credit := 9 })], bport := [(15, { ctrs := [(0, 5), (131, -5)] })] } },
    _, 15, rfl, by decide +kernel⟩,
   ⟨rdy, _, 15, rfl, by decide +kernel⟩,
   ⟨rdy, _, 32, 7, [4], 4, none, rfl, by decide +kernel, by decide +kernel⟩,
   ⟨{ rdy with
      core := { rdyC with
                arb := [(bankKey 32 0, { credit := 3 }), (bankKey 32 2, { credit := 3 }), (bankKey 32 4, { credit := 1 })]
                bankSt := [(263, { urgent := true, since := [(2, 0)] })] } }, _, 32, 7, [2, 4, 0], 0, some 3, rfl, by decide +kernel,
    by decide +kernel⟩,
   ⟨{ rdy with
      core := { rdyC with
                arb := [(bankKey 32 0, { credit := 3 }), (bankKey 32 2, { credit := 4 })]
                bankSt := [(263, { lost := true, since := [(2, 0)] })] } }, _, 32, 7, [2, 4, 0], 0, none, rfl, by decide +kernel,
    by decide +kernel⟩,
   ⟨{ rdy with sag := { debugOpen := 1 } }, _, 32, 7, [0, 3], rfl, by decide +kernel⟩⟩

theorem witness_BackEndAnswers :
    (∃ (s : State) (c : Core) (b : Fin 16) (f : Flit) (x : Bundle) (y : BLine) (ph : Nat) (cs : Nat) (w : Nat) (m : Nat) (l : Loc),
      s.core = c ∧ (On s ∧ c.st.cur ≠ .flush ∧ BackTakes c b f ∧ fMsg f = some .beDurable ∧ fStat f = 0 ∧ bundleOf c b (fTag f) =
      some x) ∧ (x.lines = [y] ∧ x.meters = [m] ∧ dirtyLoc c y.line = some (ph, cs, w, l) ∧ l.bundle = some x.id ∧ c.lcStop = false
      ∧ lineType c y.line = 1) ∧ w < wareFrom c ∧ c.arr.trk = [] ∧ Restful c ∧ c.keyNext = [] ∧ c.pug = []) ∧
    (∃ (s : State) (c : Core) (b : Fin 16) (f : Flit) (r : Read) (u : Trk) (w : Nat) (st : Stat), s.core = c ∧ (On s ∧ BackTakes c b
      f ∧ fMsg f = some .beData ∧ codeStat (fStat f) = some st ∧ st.isErr = false ∧ c.reads.find? (fun r => r.port == b.val && r.st
      == .out && r.tag == fTag f && localOf r.line == fLine f) = some r) ∧ ((c.reads.map (fun x => x.sn)).Nodup ∧ r.bound = none ∧
      c.keyNext = [] ∧ trkGet c r.slice r.trk = some u ∧ u.fill = .out r.sn ∧ u.data = none) ∧ (u.refetch = false ∧ u.st = .gather ∧
      u.passed = true ∧ gathering u = true ∧ u.fwd = none ∧ u.newEnt = none) ∧ (Calm c ∧ r.way = some w ∧ c.arr.nruBad = [] ∧
      c.lcStop = false ∧ lcUsable c r.phys (lcSet r.line) w = true ∧ fPoison f = false) ∧ lcFind c r.slice r.line = none) :=
  ⟨⟨{ rdy with core := { rdyC with bundles := [bun0], arr := { lc := [(0, { hLoc .budgeted with bundle := some 0 })] } } }, _, 0,
    encFlit { msg := .beDurable, tag := 0x800 }, bun0, { line := 0, data := 5, poison := false }, 0, 0, 0, 0,
    { hLoc .budgeted with bundle := some 0 }, rfl, by decide +kernel, by decide +kernel, by decide +kernel⟩,
   ⟨{ rdy with
      core := { rdyC with
                reads := [read0]
                arr := { trk := [{ trk0 with fill := .out 0, snoops := [{ who := 1, msg := .snpInval, t0 := 0 }] }] } } }, _, 0,
    encFlit { msg := .beData, dv := true, be := beAll, data := 9 }, read0,
    { trk0 with fill := .out 0, snoops := [{ who := 1, msg := .snpInval, t0 := 0 }] }, 0, .ok, rfl, by decide +kernel, by decide +kernel,
    by decide +kernel, by decide +kernel, by decide +kernel⟩⟩

theorem witness_BackEndStatus :
    (∃ (s : State) (c : Core) (b : Fin 16) (f : Flit), s.core = c ∧ On s ∧ BackTakes c b f ∧ fMsg f = some .beStatus ∧ statBad f =
      false ∧ fCode f = 2 ∧ (bpGet c b).ready = false) ∧
    (∃ (s : State) (c : Core) (b : Fin 16) (f : Flit), s.core = c ∧ (On s ∧ BackTakes c b f ∧ fMsg f = some .beStatus ∧ statBad f =
      false ∧ fCode f = 3 ∧ c.st.cur ≠ .waitBackend) ∧ (∀ r ∈ c.reads, r.port = b.val → r.st ≠ .held ∧ (r.st = .queued → bportOf c
      r.line = some b.val)) ∧ Calm c) ∧
    (∃ (s : State) (c : Core) (b : Fin 16) (f : Flit), s.core = c ∧ On s ∧ BackTakes c b f ∧ fMsg f = some .beStatus ∧ statBad f =
      false ∧ fCode f = 4) ∧
    (∃ (s : State) (c : Core) (b : Fin 16) (f : Flit), s.core = c ∧ On s ∧ BackTakes c b f ∧ statBad f = false ∧ fMsg f = some
      .beHealth ∧ healthOk f.pay = true) ∧
    (∃ (s : State) (c : Core) (b : Fin 16) (f : Flit) (x : Bundle) (y : BLine) (ph : Nat) (cs : Nat) (w : Nat) (r : Nat) (l : Loc),
      s.core = c ∧ (On s ∧ BackTakes c b f ∧ statBad f = false ∧ fMsg f = some .beStatus ∧ fCode f = 1 ∧ bundleOf c b (fTag f) =
      some x) ∧ (x.lines = [y] ∧ dirtyLoc c y.line = some (ph, cs, w, l) ∧ l.bundle = some x.id ∧ rgnIndex c y.line = some r ∧
      c.arr.trk = [] ∧ Restful c) ∧ c.keyNext = [] ∧ c.pug = []) :=
  ⟨⟨{ rdy with core := { rdyC with bport := [(15, { inCrd := crd })] } }, _, 15,
    encFlit { msg := .beStatus, be := BitVec.ofNat 64 (2 + 256 * 100) }, rfl, by decide +kernel⟩,
   ⟨{ rdy with core := { rdyC with bport := [(15, { inCrd := crd })] } }, _, 15, encFlit { msg := .beStatus, be := 3 }, rfl,
    by decide +kernel, by decide +kernel⟩,
   ⟨{ rdy with core := { rdyC with bport := [(15, { inCrd := crd })] } }, _, 15,
    encFlit { msg := .beStatus, be := BitVec.ofNat 64 (4 + 256 * 50) }, rfl, by decide +kernel⟩,
   ⟨{ rdy with core := { rdyC with bport := [(15, { inCrd := crd })] } }, _, 15,
    encFlit { msg := .beHealth, dv := true, be := beAll, data := healthLine }, rfl, by decide +kernel⟩,
   ⟨{ rdy with core := { rdyC with bundles := [bun0], arr := { lc := [(0, { hLoc .budgeted with bundle := some 0 })] } } }, _, 0,
    encFlit { msg := .beStatus, tag := 0x800, be := 1 }, bun0, { line := 0, data := 5, poison := false }, 0, 0, 0, 0,
    { hLoc .budgeted with bundle := some 0 }, rfl, by decide +kernel, by decide +kernel, by decide +kernel⟩⟩

theorem witness_RemoteSnoops :
    (∃ (s : State) (c : Core) (k : Fin 4) (m : SpanMsg), s.core = c ∧ (On s ∧ portsUp c = true ∧ NoFlip c ∧ rxFind c k (fun m =>
      m.flits.any (fun f => msgCls f.msg == 1)) = some m ∧ pfCheck c (rxFlit m).line = c ∧ pfBank (rxFlit m).line = k.val) ∧ (gwGet
      c k).snoops = [] ∧ (gwGet c k).lineq = [] ∧ (gwGet c k).nruBad = [] ∧ (gwGet c k).unfiltered.contains (pfSet (rxFlit m).line)
      = false ∧ pfFind c (rxFlit m).line = none) ∧
    (∃ (s : State) (c : Core) (k : Fin 4) (m : SpanMsg) (w : _) (a : _), s.core = c ∧ (On s ∧ portsUp c = true ∧ NoFlip c ∧ rxFind c
      k (fun m => m.flits.any (fun f => msgCls f.msg == 1)) = some m ∧ pfCheck c (rxFlit m).line = c ∧ pfBank (rxFlit m).line =
      k.val) ∧ ((gwGet c k).snoops = [] ∧ (gwGet c k).lineq = [] ∧ (gwGet c k).nruBad = [] ∧ (gwGet c k).unfiltered.contains (pfSet
      (rxFlit m).line) = false ∧ pfFind c (rxFlit m).line = some w ∧ pAgents (pfRd c k (pfSet (rxFlit m).line) w).bits = [a]) ∧ a <
      64 ∧ (cpGet c (a / 4)).closed = false) :=
  ⟨⟨{ rdy with core := { rdyC with gw := [(0, { rx := [spanM .snpInval] })], dom := { members := 3 } } }, _, 0, spanM .snpInval, rfl,
    by decide +kernel, by decide +kernel⟩,
   ⟨{ rdy with core := { rdyC with gw := [(0, { rx := [spanM .snpInval], pf := [(0, pfWord)] })], dom := { inst := 2, members := 7 } } },
    _, 0, spanM .snpInval, 0, 0, rfl, by decide +kernel, by decide +kernel, by decide +kernel⟩⟩

theorem witness_GatewayRequests :
    (∃ (s : State) (c : Core) (k : Fin 4) (r : Req) (tg : Nat), s.core = c ∧ (On s ∧ NoFlip c ∧ gwHead (gwGet c k) = some r ∧
      r.op.isWb = false ∧ pfCheck c r.line = c ∧ (gwGet c k).snoops = []) ∧ pfFind c r.line = none ∧ c.ending = false ∧ gwFreeTag
      (gwGet c k) k false = some tg) ∧
    (∃ (s : State) (c : Core) (k : Fin 4) (r : Req) (tg : Nat), s.core = c ∧ (On s ∧ NoFlip c ∧ gwHead (gwGet c k) = some r ∧
      r.op.isWb = false ∧ pfCheck c r.line = c ∧ (gwGet c k).snoops = []) ∧ pfFind c r.line = none ∧ c.ending = false ∧ gwFreeTag
      (gwGet c k) k false = some tg ∧ r = { hReq .cleanUnique with line := 2 ^ 42 }) ∧
    (∃ (s : State) (c : Core) (k : Fin 4) (m : SpanMsg) (g : GwTag), s.core = c ∧ (On s ∧ rxFind c k (fun m => (m.msg == .cmp ||
      m.msg == .cmpData) && (rxFlit m).rid == ownRid c && true) = some m ∧ (gwGet c k).tags.find? (fun t => t.tag == (rxFlit m).tag)
      = some g ∧ g.expired = false ∧ (rxFlit m).gst = .i ∧ g.req.src ≠ gwOwn) ∧ (gwGet c k).lineq = [] ∧ (gwGet c k).snoops = []) ∧
    (∃ (s : State) (c : Core) (k : Fin 4) (m : SpanMsg) (g : GwTag), s.core = c ∧ (On s ∧ rxFind c k (fun m => (m.msg == .cmp ||
      m.msg == .cmpData) && (rxFlit m).rid == ownRid c && true) = some m ∧ (gwGet c k).tags.find? (fun t => t.tag == (rxFlit m).tag)
      = some g ∧ g.expired = false ∧ (rxFlit m).gst = .i ∧ g.req.src ≠ gwOwn) ∧ (gwGet c k).lineq = [] ∧ (gwGet c k).snoops = [] ∧ m
      = { spanM .cmpData with flits := [{ msg := .cmpData, rid := 80, dv := true, be := beAll, data := 9, ackreq := false, line := 2 ^ 42 }] }) :=
  ⟨⟨{ rdy with core := { rdyC with gw := [(0, { lineq := [{ hReq .rdShared with line := 2 ^ 42 }] })], dom := { members := 3 } } }, _, 0,
    { hReq .rdShared with line := 2 ^ 42 }, 0, rfl, by decide +kernel, by decide +kernel⟩,
   ⟨{ rdy with core := { rdyC with gw := [(0, { lineq := [{ hReq .cleanUnique with line := 2 ^ 42 }] })], dom := { members := 3 } } }, _,
    0, { hReq .cleanUnique with line := 2 ^ 42 }, 0, rfl, by decide +kernel, by decide +kernel⟩,
   ⟨{ rdy with
      core := { rdyC with
                gw := [(0,
                        { rx := [{ spanM .cmpData with
                                   flits := [{ msg := .cmpData
                                               rid := 80
                                               dv := true
                                               be := beAll
                                               data := 9
                                               ackreq := true
                                               line := 2 ^ 42 }] }]
                          tags := [{ tag := 0, req := { hReq .rdOnce with line := 2 ^ 42 }, dst := 1, t0 := 0 }] })]
                dom := { members := 3 } } }, _, 0,
    { spanM .cmpData with flits := [{ msg := .cmpData, rid := 80, dv := true, be := beAll, data := 9, ackreq := true, line := 2 ^ 42 }] },
    { tag := 0, req := { hReq .rdOnce with line := 2 ^ 42 }, dst := 1, t0 := 0 }, rfl, by decide +kernel, by decide +kernel⟩,
   ⟨{ rdy with
      core := { rdyC with
                gw := [(0,
                        { rx := [{ spanM .cmpData with
                                   flits := [{ msg := .cmpData
                                               rid := 80
                                               dv := true
                                               be := beAll
                                               data := 9
                                               ackreq := false
                                               line := 2 ^ 42 }] }]
                          tags := [{ tag := 0, req := { hReq .rdOnce with line := 2 ^ 42 }, dst := 1, t0 := 0 }] })]
                dom := { members := 3 } } }, _, 0,
    { spanM .cmpData with flits := [{ msg := .cmpData, rid := 80, dv := true, be := beAll, data := 9, ackreq := false, line := 2 ^ 42 }] },
    { tag := 0, req := { hReq .rdOnce with line := 2 ^ 42 }, dst := 1, t0 := 0 }, rfl, by decide +kernel, by decide +kernel⟩⟩

theorem witness_LinkFrames :
    (∃ (s : State) (c : Core) (n : Fin 4) (fr : Frame), s.core = c ∧ frameOk fr = true ∧ (On s ∧ portsUp c = true ∧ (spGet c
      n).resetIn = false ∧ (spGet c n).stopped = false ∧ (spGet c n).linkUp = true ∧ (spGet c n).trained = true) ∧ (spGet c n).outq
      = [] ∧ lfld fr 28 28 = 0 ∧ c.st.cur ≠ .halt ∧ lfld fr 3 0 = 0) ∧
    (∃ (s : State) (c : Core) (n : Fin 4) (fr : Frame), s.core = c ∧ frameOk fr = true ∧ (On s ∧ portsUp c = true ∧ (spGet c
      n).resetIn = false ∧ (spGet c n).stopped = false ∧ (spGet c n).linkUp = true ∧ (spGet c n).trained = true) ∧ (spGet c n).outq
      = [] ∧ lfld fr 28 28 = 0 ∧ c.st.cur ≠ .halt ∧ lfld fr 3 0 = 3 ∧ lfld fr 32 32 = 0) ∧
    (∃ (s : State) (c : Core) (n : Fin 4) (fr : Frame), s.core = c ∧ frameOk fr = true ∧ (On s ∧ portsUp c = true ∧ (spGet c
      n).resetIn = false ∧ (spGet c n).stopped = false ∧ (spGet c n).linkUp = true ∧ (spGet c n).trained = true) ∧ ((spGet c n).outq
      = [] ∧ lfld fr 28 28 = 0 ∧ c.st.cur ≠ .halt ∧ lfld fr 3 0 = 2 ∧ lfld fr 32 32 = 0 ∧ (spGet c n).replay ≠ []) ∧ (spGet c
      n).resends < 8) ∧
    (∃ (s : State) (c : Core) (n : Fin 4) (silent : Bool), s.core = c ∧ On s ∧ (spGet c n).linkUp = true ∧ (silent = true → (spGet c
      n).trained = true ∧ (spGet c n).lastGood + 1000 ≤ now c)) ∧
    (∃ (s : State) (c : Core) (n : Fin 4) (silent : Bool), s.core = c ∧ On s ∧ (spGet c n).linkUp = true ∧ (silent = true → (spGet c
      n).trained = true ∧ (spGet c n).lastGood + 1000 ≤ now c) ∧ silent = true) :=
  ⟨⟨{ rdy with core := { rdyC with sport := [(3, { linkUp := true, trained := true, up := true })] } }, _, 3,
    mkFrame (noFlit) (mkLink 0 0 0 0 5 1 0 0 0 0), rfl, frameOk_mkFrame _ _, by decide +kernel, by decide +kernel⟩,
   ⟨{ rdy with core := { rdyC with sport := [(3, { linkUp := true, trained := true, up := true })] } }, _, 3,
    mkFrame ({ hdr := 0, pay := 0x060504030201 }) (mkLink 3 0 0 0 0 0 0 0 0 0), rfl, frameOk_mkFrame _ _, by decide +kernel,
    by decide +kernel⟩,
   ⟨{ rdy with
      core := { rdyC with
                sport := [(3,
                           { linkUp := true
                             trained := true
                             up := true
                             fseq := 1
                             replay := [(0, mkFrame (noFlit) (mkLink 1 0 0 0 0 0 0 0 0 0))] })] } }, _, 3,
    mkFrame (noFlit) (mkLink 2 0 0 0 0 0 0 0 0 0), rfl, frameOk_mkFrame _ _, by decide +kernel, by decide +kernel, by decide +kernel⟩,
   ⟨{ rdy with core := { rdyC with sport := [(3, { linkUp := true, trained := true, up := true })] } }, _, 3, false, rfl,
    by decide +kernel⟩,
   ⟨{ rdy with core := { rdyC with tick := 1000, sport := [(3, { linkUp := true, trained := true, up := true })] } }, _, 3, true, rfl,
    by decide +kernel⟩⟩

theorem witness_FlitsInSequence :
    (∃ (s : State) (c : Core) (n : Fin 4) (fr : Frame) (x : OutFlit), s.core = c ∧ frameOk fr = true ∧ (On s ∧ portsUp c = true ∧
      (spGet c n).resetIn = false ∧ (spGet c n).stopped = false ∧ (spGet c n).linkUp = true ∧ (spGet c n).trained = true) ∧ (lfld fr
      3 0 = 1 ∧ (spGet c n).outq = [] ∧ lfld fr 28 28 = 0 ∧ lfld fr 32 32 = 0 ∧ c.st.cur ≠ .halt ∧ lfld fr 15 4 = (spGet c
      n).expect) ∧ (fate [0, 1, 2, 3, 4, 5] fr.flit = .good ∧ c.reqStop = false ∧ c.st.cur = .ready ∧ lfld fr 40 37 = c.dom.inst ∧
      decFlit fr.flit = some x ∧ (spGet c n).conflict = false) ∧ msgCls x.msg ≠ 5 ∧ (msgCls x.msg = 0 ∨ x.msg ∉ [.beWrite, .beAbort,
      .beDurable, .beStatus, .beData, .beHealth]) ∧ x.seq = 0 ∧ x.last = true ∧ lfld fr 58 43 = mget (gwGet c (lfld fr 42 41)).rxSeq
      (16 * lfld fr 36 33 + msgCls x.msg) 0) ∧
    (∃ (s : State) (c : Core) (n : Fin 4) (fr : Frame), s.core = c ∧ frameOk fr = true ∧ (On s ∧ portsUp c = true ∧ (spGet c
      n).resetIn = false ∧ (spGet c n).stopped = false ∧ (spGet c n).linkUp = true ∧ (spGet c n).trained = true) ∧ (lfld fr 3 0 = 1
      ∧ (spGet c n).outq = [] ∧ lfld fr 28 28 = 0 ∧ lfld fr 32 32 = 0 ∧ c.st.cur ≠ .halt ∧ lfld fr 15 4 ≠ (spGet c n).expect) ∧
      (spGet c n).naked = false) :=
  ⟨⟨{ rdy with
      core := { rdyC with
                sport := [(0, { linkUp := true, trained := true, up := true, expect := 4095 })]
                gw := [(3, { rxSeq := [(17, 65535)] })]
                dom := { inst := 0, members := 3 } } }, _, 0,
    mkFrame (encFlit { msg := .snpInval, tag := 5, rid := 81, line := 2 ^ 42 }) (mkLink 1 4095 0 0 0 0 1 0 3 65535),
    { msg := .snpInval, tag := 5, rid := 81, line := 2 ^ 42 }, rfl, frameOk_mkFrame _ _, by decide +kernel, by decide +kernel,
    by decide +kernel, by decide +kernel⟩,
   ⟨{ rdy with core := { rdyC with sport := [(0, { linkUp := true, trained := true, up := true })] } }, _, 0,
    mkFrame (noFlit) (mkLink 1 4095 0 0 0 0 0 0 0 0), rfl, frameOk_mkFrame _ _, by decide +kernel, by decide +kernel, by decide +kernel⟩⟩

theorem witness_LinksComeUp :
    (∃ (s : State) (c : Core) (n : Fin 4), s.core = c ∧ On s ∧ portsUp c = true ∧ (spGet c n).resetIn = false ∧ (spGet c n).stopped
      = false ∧ (spGet c n).linkUp = false) ∧
    (∃ (s : State) (c : Core) (n : Fin 4), s.core = c ∧ (On s ∧ portsUp c = true ∧ (spGet c n).resetIn = false ∧ (spGet c n).stopped
      = false ∧ (spGet c n).linkUp = true ∧ (spGet c n).gotTrain = false) ∧ (spGet c n).lastTrain + 100 ≤ now c) ∧
    (∃ (s : State) (c : Core) (n : Fin 4) (fr : _), s.core = c ∧ frameOk fr = true ∧ (On s ∧ portsUp c = true ∧ (spGet c n).resetIn
      = false ∧ (spGet c n).stopped = false ∧ (spGet c n).linkUp = true ∧ c.st.cur ≠ .halt) ∧ lfld fr 3 0 = 4 ∧ payByte fr.flit 0 =
      0 ∧ (spGet c n).gotStep1 = false) ∧
    (∃ (s : State) (c : Core) (n : Fin 4) (fr : _), s.core = c ∧ frameOk fr = true ∧ (On s ∧ portsUp c = true ∧ (spGet c n).resetIn
      = false ∧ (spGet c n).stopped = false ∧ (spGet c n).linkUp = true ∧ c.st.cur ≠ .halt) ∧ lfld fr 3 0 = 4 ∧ payByte fr.flit 0 =
      1 ∧ (spGet c n).sentStep1 = true ∧ (spGet c n).trained = false) ∧
    (∃ (s : State) (c : Core) (n : Fin 4) (m : SpanMsg), s.core = c ∧ On s ∧ (spGet c n).mgt.find? (fun m => mgtType m == 1) = some
      m ∧ mgtNum m 8 1 % 16 ≠ c.dom.inst ∧ c.dom.strap = false) ∧
    (∃ (s : State) (c : Core) (n : Fin 4) (m : SpanMsg), s.core = c ∧ On s ∧ (spGet c n).mgt.find? (fun m => mgtType m == 1) = some
      m ∧ mgtNum m 8 1 % 16 = c.dom.inst) ∧
    (∃ (s : State) (c : Core) (n : Fin 4) (m : SpanMsg), s.core = c ∧ On s ∧ (spGet c n).mgt.find? (fun m => mgtType m == 2) = some
      m) ∧
    (∃ (s : State) (c : Core), s.core = c ∧ On s ∧ c.dom.pseq < 2 ^ 32 ∧ c.dom.helloAt + 2 ^ 16 ≤ now c) ∧
    (∃ (s : State) (c : Core), s.core = c ∧ On s ∧ c.dom.pseq < 2 ^ 32 ∧ c.dom.routeAt + 2 ^ 14 ≤ now c) :=
  ⟨⟨rdy, _, 3, rfl, by decide +kernel⟩,
   ⟨{ rdy with core := { rdyC with tick := 100, sport := [(3, { linkUp := true })] } }, _, 3, rfl, by decide +kernel, by decide +kernel⟩,
   ⟨{ rdy with core := { rdyC with sport := [(3, { linkUp := true })] } }, _, 3, mkFrame (noFlit) (mkLink 4 0 0 0 0 0 0 0 0 0), rfl,
    frameOk_mkFrame _ _, by decide +kernel, by decide +kernel⟩,
   ⟨{ rdy with core := { rdyC with sport := [(3, { linkUp := true, sentStep1 := true })] } }, _, 3,
    mkFrame ({ hdr := 0, pay := 1 }) (mkLink 4 0 0 0 0 0 0 0 0 0), rfl, frameOk_mkFrame _ _, by decide +kernel, by decide +kernel⟩,
   ⟨{ rdy with
      core := { rdyC with
                sport := [(3, { linkUp := true, trained := true, up := true, mgt := [mgtM 1 1 [1]] })]
                dom := { strap := false } } }, _, 3, mgtM 1 1 [1], rfl, by decide +kernel⟩,
   ⟨{ rdy with core := { rdyC with sport := [(3, { linkUp := true, trained := true, up := true, mgt := [mgtM 1 1 [0]] })] } }, _, 3,
    mgtM 1 1 [0], rfl, by decide +kernel⟩,
   ⟨{ rdy with
      core := { rdyC with
                sport := [(3,
                           { linkUp := true
                             trained := true
                             up := true
                             mgt := [mgtM 2 1 [1, 1, 1, 1, 1, 1, 1, 1, 1, 1, 1, 1, 1, 1, 1, 1]] })] } }, _, 3,
    mgtM 2 1 [1, 1, 1, 1, 1, 1, 1, 1, 1, 1, 1, 1, 1, 1, 1, 1], rfl, by decide +kernel⟩,
   ⟨{ rdy with core := { rdyC with tick := 65536, sport := [(3, { linkUp := true, trained := true, up := true })] } }, _, rfl,
    by decide +kernel⟩,
   ⟨{ rdy with core := { rdyC with tick := 16384, sport := [(3, { linkUp := true, trained := true, up := true })] } }, _, rfl,
    by decide +kernel⟩⟩

theorem witness_SessionsAcknowledge :
    (∃ (s : State) (c : Core) (k : Fin 4) (i : Fin 16), s.core = c ∧ On s ∧ (activeRoute c i).isSome = true ∧ ((gwGet c
      k).ackDue.any (fun x => x.1 / 16 == i.val && (decide (16 ≤ x.2.1) || decide (x.2.2 + 50 ≤ now c)))) = true) ∧
    (∃ (s : State) (c : Core) (n : Fin 4) (k : Fin 4) (m : SpanMsg), s.core = c ∧ On s ∧ (spGet c n).mgt.find? (fun m => mgtType m
      == 3) = some m ∧ mgtNum m 8 1 = 1 ∧ mgtNum m 12 1 % 4 = k ∧ txIn (gwGet c k).tx = (gwGet c k).tx) ∧
    (∃ (s : State) (c : Core) (k : Fin 4) (i : Fin 16) (n : Nat), s.core = c ∧ On s ∧ activeRoute c i = some n ∧ ((txIn (gwGet c
      k).tx).any (fun m => m.dst == i.val && decide (m.t0 + reissueWait c ≤ now c))) = true) :=
  ⟨⟨{ rdy with
      core := { rdyC with
                gw := [(3, { ackDue := [(16, (16, 0))] })]
                sport := [(0, { linkUp := true, trained := true, up := true, nbValid := true, neighbour := 1 })]
                dom := { members := 3 } } }, _, 3, 1, rfl, by decide +kernel⟩,
   ⟨{ rdy with
      core := { rdyC with
                sport := [(0, { linkUp := true, trained := true, up := true, mgt := [mgtM 3 1 [1, 0, 0, 0, 3, 0, 0, 0]] })]
                gw := [(3, { tx := [{ src := 0, dst := 1, gw := 3, eseq := 0, msg := .rdOnce, flits := [{ msg := .rdOnce }] }] })] } }, _,
    0, 3, mgtM 3 1 [1, 0, 0, 0, 3, 0, 0, 0], rfl, by decide +kernel⟩,
   ⟨{ rdy with
      core := { rdyC with
                tick := 0x40000000
                gw := [(3, { tx := [{ src := 0, dst := 1, gw := 3, eseq := 0, msg := .rdOnce, flits := [{ msg := .rdOnce }] }] })]
                sport := [(0, { linkUp := true, trained := true, up := true, nbValid := true, neighbour := 1 })]
                dom := { members := 3 } } }, _, 3, 1, 0, rfl, by decide +kernel⟩⟩

theorem witness_PortResets :
    (∃ (s : State) (c : Core) (p : Fin 16), s.core = c ∧ (On s ∧ (cpGet c p).closed = false ∧ (cpGet c p).tags = [] ∧ (cpGet c
      p).snoops = [] ∧ (cpGet c p).inq = [] ∧ (∀ t ∈ c.arr.trk, ∀ a ∈ t.awaitWb, portOfAgent a.1 ≠ p.val)) ∧ Calm c) ∧
    (∃ (s : State) (c : Core) (n : Fin 8), s.core = c ∧ On s ∧ (dpGet c n).closed = false ∧ (dpGet c n).psb = [] ∧ (dpGet c n).tags
      = [] ∧ (dpGet c n).early = []) ∧
    (∃ (s : State) (c : Core) (p : Fin 16), s.core = c ∧ On s ∧ (cpGet c p).closed = true ∧ (cpGet c p).stopped = false ∧ (cpGet c
      p).purging = false ∧ portsUp c = true) ∧
    (∃ (s : State) (c : Core) (n : Fin 8), s.core = c ∧ (On s ∧ (dpGet c n).closed = true ∧ (dpGet c n).stopped = false ∧ (dpGet c
      n).psb = [] ∧ (dpGet c n).early = [] ∧ (∀ t ∈ (dpGet c n).tags, t.phase ≠ .opened)) ∧ portsUp c = true) ∧
    (∃ (s : State) (c : Core) (b : Fin 16), s.core = c ∧ On s ∧ (bpGet c b).closed = true ∧ (bpGet c b).stopped = false) ∧
    (∃ (s : State) (c : Core) (b : Fin 16), s.core = c ∧ On s ∧ (bpGet c b).stopped = true) ∧
    (∃ (s : State) (c : Core) (p : Fin 16), s.core = c ∧ (On s ∧ (cpGet c p).purging = true ∧ (cpGet c p).closed = true ∧ (cpGet c
      p).tags = [] ∧ (cpGet c p).inq = [] ∧ (cpGet c p).poisoned = []) ∧ c.arr.sfHome = [] ∧ c.arr.trk = [] ∧ c.arr.setRec = [] ∧
      Restful c) :=
  ⟨⟨rdy, _, 15, rfl, by decide +kernel, by decide +kernel⟩,
   ⟨{ rdy with
      core := { rdyC with
                dport := [(7, { credits := crd, inCrd := crd, dlist := [3], epoch := some .errDecode })]
                arr := { mon := [(7, { granule := 0, expiry := 0 }), (8, { granule := 0, expiry := 0 })] } }
      ctl := { rdy.ctl with lig := [(31, { owner := 9 })] } }, _, 7, rfl, by decide +kernel⟩,
   ⟨{ rdy with core := { rdyC with cport := [(15, { resetIn := true, closed := true })] } }, _, 15, rfl, by decide +kernel⟩,
   ⟨{ rdy with core := { rdyC with dport := [(7, { resetIn := true, closed := true })] } }, _, 7, rfl, by decide +kernel,
    by decide +kernel⟩,
   ⟨{ rdy with core := { rdyC with bport := [(15, { resetIn := true, closed := true })] } }, _, 15, rfl, by decide +kernel⟩,
   ⟨{ rdy with core := { rdyC with bport := [(15, { resetIn := true, closed := true, stopped := true })] } }, _, 15, rfl,
    by decide +kernel⟩,
   ⟨{ rdy with core := { rdyC with cport := [(15, { resetIn := true, closed := true, purging := true })] } }, _, 15, rfl,
    by decide +kernel, by decide +kernel⟩⟩

theorem witness_PowerOnAndOff :
    ∃ (s : State), s.core.st.cur = .off ∧ s.pwr.pwrfail = false :=
  ⟨{ rdy with core := { rdyC with st := { cur := .off } } }, by decide +kernel⟩

theorem witness_OffUntilPowerOk :
    ∃ (i : Instr) (s : State) (t : State), exec i s = .next t ∧ s.core.st.cur = .off ∧ (∀ n b, i ≠ .pwrOkAssert n b) :=
  ⟨.vddsWarn, { core := { st := { cur := .off } } }, { core := { st := { cur := .off } }, pwr := { vddsWarn := true } }, rfl,
   by decide +kernel⟩

theorem witness_WarmReset :
    (∃ (s : State), s.core.st.cur = .halt) ∧
    (∃ (s : State) (c : Core), s.core = c ∧ c.st.cur = .halt ∧ s.pwr.warmPend = true ∧ NoFlip c) :=
  ⟨⟨{ rdy with core := { rdyC with st := { cur := .halt } } }, by decide +kernel⟩,
   ⟨{ rdy with core := { rdyC with st := { cur := .halt } }, pwr := { warmPend := true } }, _, rfl, by decide +kernel⟩⟩

theorem witness_InitSteps :
    (∃ (s : State), s.core.st.cur = .init ∧ s.pwr.calibrated = false ∧ s.pwr.flushAfterCal = false) ∧
    (∃ (s : State) (p : Fin 3), s.core.st.cur = .init ∧ s.pwr.calibrated = true ∧ s.pwr.loaded.length = p ∧ p.val < 2 ∧ NoFlip
      s.core ∧ s.pwr.triedOther = false) ∧
    (∃ (s : State) (p : Fin 3), s.core.st.cur = .init ∧ s.pwr.calibrated = true ∧ s.pwr.loaded.length = p ∧ p.val < 2 ∧ NoFlip
      s.core ∧ s.pwr.triedOther = true) ∧
    (∃ (s : State) (p : Fin 3), s.core.st.cur = .init ∧ s.pwr.calibrated = true ∧ s.pwr.loaded.length = p ∧ p.val < 2 ∧ NoFlip
      s.core ∧ s.pwr.triedOther = false) ∧
    (∃ (s : State) (p : Fin 3), (s.core.st.cur = .init ∧ s.pwr.calibrated = true ∧ s.pwr.loaded.length = p ∧ p.val < 2 ∧ NoFlip
      s.core ∧ s.pwr.triedOther = false) ∧ p = 1) ∧
    (∃ (s : State) (p : Fin 3), (s.core.st.cur = .init ∧ s.pwr.calibrated = true ∧ s.pwr.loaded.length = p ∧ p.val < 2 ∧ NoFlip
      s.core ∧ s.pwr.triedOther = true) ∧ p = 1) ∧
    (∃ (s : State) (p : Fin 3), (s.core.st.cur = .init ∧ s.pwr.calibrated = true ∧ s.pwr.loaded.length = p ∧ p.val < 2 ∧ NoFlip
      s.core ∧ s.pwr.triedOther = false) ∧ p = 1) :=
  ⟨⟨{ rdy with core := { rdyC with st := { cur := .init } } }, by decide +kernel⟩,
   ⟨{ rdy with core := { rdyC with st := { cur := .init } }, pwr := { calibrated := true, loaded := List.range 0, triedOther := false } },
    0, by decide +kernel⟩,
   ⟨{ rdy with core := { rdyC with st := { cur := .init } }, pwr := { calibrated := true, loaded := List.range 0, triedOther := true } },
    0, by decide +kernel⟩,
   ⟨{ rdy with core := { rdyC with st := { cur := .init } }, pwr := { calibrated := true, loaded := List.range 0, triedOther := false } },
    0, by decide +kernel⟩,
   ⟨{ rdy with core := { rdyC with st := { cur := .init } }, pwr := { calibrated := true, loaded := List.range 1, triedOther := false } },
    1, by decide +kernel, by decide +kernel⟩,
   ⟨{ rdy with core := { rdyC with st := { cur := .init } }, pwr := { calibrated := true, loaded := List.range 1, triedOther := true } },
    1, by decide +kernel, by decide +kernel⟩,
   ⟨{ rdy with core := { rdyC with st := { cur := .init } }, pwr := { calibrated := true, loaded := List.range 1, triedOther := false } },
    1, by decide +kernel, by decide +kernel⟩⟩

theorem witness_OpenRecordOpensGeneration :
    (∃ (s : State) (r : Record), On s ∧ s.pers.write = some (.enterReady, r) ∧ s.pers.attempt = true ∧ s.pers.commits = [] ∧
      anyOneCopy s.core = false ∧ NoFlip s.core) ∧
    (∃ (s : State) (r : Record), On s ∧ s.pers.write = some (.enterReady, r) ∧ s.pers.attempt = true) ∧
    (∃ (s : State) (r : Record), (On s ∧ s.pers.write = some (.enterReady, r) ∧ s.pers.attempt = true ∧ s.pers.commits = [] ∧
      anyOneCopy s.core = false ∧ NoFlip s.core) ∧ r = rec0 2) ∧
    (∃ (s : State) (r : Record), On s ∧ s.pers.write = some (.enterReady, r) ∧ s.pers.attempt = true ∧ r = rec0 2) ∧
    (∃ (s : State), On s ∧ s.pers.write.isSome = true ∧ s.pers.failed = true ∧ s.pers.attempt = false) :=
  ⟨⟨{ rdy with core := { rdyC with st := { cur := .waitBackend } }, pers := { write := some (.enterReady, rec0 1), attempt := true } },
    rec0 1, by decide +kernel⟩,
   ⟨{ rdy with core := { rdyC with st := { cur := .waitBackend } }, pers := { write := some (.enterReady, rec0 1), attempt := true } },
    rec0 1, by decide +kernel⟩,
   ⟨{ rdy with core := { rdyC with st := { cur := .waitBackend } }, pers := { write := some (.enterReady, rec0 2), attempt := true } },
    rec0 2, by decide +kernel, by decide +kernel⟩,
   ⟨{ rdy with core := { rdyC with st := { cur := .waitBackend } }, pers := { write := some (.enterReady, rec0 2), attempt := true } },
    rec0 2, by decide +kernel⟩,
   ⟨{ rdy with core := { rdyC with st := { cur := .waitBackend } }, pers := { write := some (.enterReady, rec0 1), failed := true } },
    by decide +kernel⟩⟩

theorem witness_PowerFailFlushes :
    (∃ (s : State) (c : Core), s.core = c ∧ c.st.cur = .ready ∧ s.pers.genOpen = false) ∧
    (∃ (s : State) (c : Core), s.core = c ∧ (c.st.cur = .ready ∧ s.pers.genOpen = true ∧ s.ctl.run = [] ∧ s.bisq.migr = none ∧
      s.bisq.repl = none ∧ s.bisq.walk = []) ∧ (c.arr = {} ∧ c.cport = [] ∧ c.dport = [] ∧ c.gw = [] ∧ c.reads = [] ∧ c.bundles =
      []) ∧ c.fab = {} ∧ isLeaving c c.dom.inst = false ∧ NoFlip c) ∧
    (∃ (s : State), On s) :=
  ⟨⟨rdy, _, rfl, by decide +kernel⟩,
   ⟨{ rdy with core := { rdyC with cport := [], dport := [] }, pers := { genOpen := true } }, _, rfl, by decide +kernel, by decide +kernel,
    by decide +kernel⟩,
   ⟨rdy, by decide +kernel⟩⟩

theorem witness_FlushCloses :
    (∃ (s : State), s.core.st.cur = .flush ∧ s.pers.closing = false ∧ flushDone s = true) ∧
    (∃ (s : State), s.core.st.cur = .flush ∧ s.pers.closing = false ∧ s.pers.flushAt + 2 ^ fld (regv s.core 0x600) 4 0 ≤ now s.core) ∧
    (∃ (s : State) (r : Record), s.core.st.cur = .flush ∧ s.pers.write = some (.close, r) ∧ s.pers.attempt = true ∧ s.ctl.run = []) ∧
    (∃ (s : State) (c : Core), s.core = c ∧ c.st.cur = .flush ∧ s.pers.flushAt + fld (regv c 0x600) 13 5 * 16 ≤ now c) :=
  ⟨⟨{ rdy with core := { rdyC with st := { cur := .flush } }, pers := { genOpen := true } }, by decide +kernel⟩,
   ⟨{ rdy with core := { rdyC with st := { cur := .flush }, tick := 0x80000000 } }, by decide +kernel⟩,
   ⟨{ rdy with
      core := { rdyC with st := { cur := .flush } }
      pers := { genOpen := true, write := some (.close, { rec0 2 with close := true }), attempt := true } }, { rec0 2 with close := true },
    by decide +kernel⟩,
   ⟨{ rdy with
      core := { rdyC with
                st := { cur := .flush }
                tick := 0x80000000
                dport := [(7, { psb := [psb0, { psb0 with tag := 1, line := 2 ^ 42 }] })]
                gw := [(3, { lineq := [{ hReq .rdShared with line := 2 ^ 42 }] })] } }, _, rfl, by decide +kernel⟩⟩

theorem witness_ProcessorFaults :
    (∃ (s : State) (p : Fin 3), On s ∧ s.ctl.up = true ∧ s.ctl.down.contains p.val = false) ∧
    (∃ (s : State) (p : Fin 3), On s ∧ p.val ≠ 0 ∧ s.ctl.down.contains p.val = true ∧ NoFlip s.core ∧ mget s.ctl.tries p 0 = 0) ∧
    (∃ (s : State) (p : Fin 3), On s ∧ p.val ≠ 0 ∧ s.ctl.down.contains p.val = true ∧ NoFlip s.core ∧ mget s.ctl.tries p 0 = 0) ∧
    (∃ (s : State) (p : Fin 3), On s ∧ p.val ≠ 0 ∧ s.ctl.down.contains p.val = true ∧ NoFlip s.core ∧ mget s.ctl.tries p 0 = 1) ∧
    (∃ (s : State) (p : Fin 3), On s ∧ p.val ≠ 0 ∧ s.ctl.down.contains p.val = true ∧ NoFlip s.core ∧ mget s.ctl.tries p 0 = 1) ∧
    (∃ (s : State) (p : Fin 3), On s ∧ p.val ≠ 0 ∧ s.ctl.down.contains p.val = true ∧ NoFlip s.core ∧ 2 ≤ mget s.ctl.tries p 0) ∧
    (∃ (s : State), s.pwr.vddsUp = true ∧ s.sag.lpRun = true ∧ s.sag.lpMem.bad = false ∧ NoFlip s.core) ∧
    (∃ (s : State), s.ctl.run = [] ∧ s.core.st.cur ≠ .service) ∧
    (∃ (s : State), s.ctl.run = [] ∧ s.core.st.cur = .service) :=
  ⟨⟨{ rdy with ctl := { up := true, lig := [(31, { owner := 12 })] } }, 2, by decide +kernel⟩,
   ⟨{ rdy with ctl := { up := true, down := [2], tries := [(2, 0)] } }, 2, by decide +kernel⟩,
   ⟨{ rdy with ctl := { up := true, down := [2], tries := [(2, 0)] } }, 2, by decide +kernel⟩,
   ⟨{ rdy with ctl := { up := true, down := [2], tries := [(2, 1)] } }, 2, by decide +kernel⟩,
   ⟨{ rdy with ctl := { up := true, down := [2], tries := [(2, 1)] } }, 2, by decide +kernel⟩,
   ⟨{ rdy with ctl := { up := true, down := [2], tries := [(2, 2)] } }, 2, by decide +kernel⟩,
   ⟨{ rdy with sag := { lpRun := true }, ctl := { up := true, lig := [(31, { owner := 13 })] } }, by decide +kernel⟩,
   ⟨{ rdy with pwr := { service := true }, sag := { present := true } }, by decide +kernel⟩,
   ⟨{ rdy with core := { rdyC with st := { cur := .service } }, pwr := { service := true }, sag := { present := true } },
    by decide +kernel⟩⟩

theorem witness_StepKeepsPacketRam :
    ∃ (s : State) (t : State), step s = .next t ∧ Inv s :=
  ⟨{ rdy with pending := [.vddsWarn], pram := [(0, 1), (262143, 2)] },
   { rdy with pram := [(0, 1), (262143, 2)], pwr := { vddsWarn := true } }, rfl, by decide +kernel⟩

theorem witness_FlitsRoundTrip :
    ∃ (f : OutFlit), f.tag < 2 ^ 12 ∧ f.rid < 2 ^ 7 ∧ f.line < 2 ^ 46 ∧ f.seq < 2 ^ 6 :=
  ⟨{ msg := .beHealth
     tag := 4095
     rid := 127
     line := 2 ^ 46 - 1
     seq := 63
     be := beAll
     data := 9
     gst := .m
     res := true
     ackreq := true
     dirty := true
     stat := .errSpan
     poison := true }, by decide +kernel⟩

theorem witness_DebugStaysLocked :
    ∃ (i : Instr) (s : State) (t : State), exec i s = .next t ∧ i ≠ .debugUnlock :=
  ⟨.debugLock, rdy, rdy, rfl, by decide +kernel⟩

theorem witness_OnlyResealReseals :
    (∃ (i : Instr) (s : State) (t : State), exec i s = .next t ∧ s.sag.signKey = none ∧ i ≠ .sagReseal) ∧
    (∃ (s : State), s.pwr.vddsUp = true ∧ s.sag.signKey = none) ∧
    (∃ (s : State), s.sag.signKey = none) :=
  ⟨⟨.vddsWarn, rdy, { rdy with pwr := { vddsWarn := true } }, rfl, by decide +kernel⟩,
   ⟨{ rdy with sag := { loopOpen := true, bad := 2 } }, by decide +kernel⟩,
   ⟨rdy, by decide +kernel⟩⟩

theorem witness_RegistersReadAndWrite :
    (∃ (s : State) (m : Master) (off : BitVec 24) (v : Word), off.toNat ∈ plainRegs ∧ masterLive s m = true ∧ m ≠ .lp ∧ rsvChanged
      s.core m off.toNat v = false) ∧
    (∃ (s : State) (m : Master) (off : BitVec 24) (v : Word), off.toNat ∈ plainRegs ∧ masterLive s m = true ∧ m ≠ .lp ∧ rsvChanged
      s.core m off.toNat v = false) ∧
    (∃ (s : State) (m : Master) (off : BitVec 24) (v : Word), off.toNat ∈ plainRegs ∧ masterLive s m = true ∧ m ≠ .lp ∧ rsvChanged
      s.core m off.toNat v = false ∧ s.snap.active = false) ∧
    (∃ (s : State) (m : Master) (off : BitVec 24) (v : Word), off.toNat ∈ plainRegs ∧ masterLive s m = true ∧ m ≠ .lp ∧ rsvChanged
      s.core m off.toNat v = false ∧ off = 0x60040) ∧
    (∃ (s : State) (m : Master) (off : BitVec 24) (v : Word), off.toNat ∈ plainRegs ∧ masterLive s m = true ∧ m ≠ .lp ∧ rsvChanged
      s.core m off.toNat v = false ∧ off = 0x60040) ∧
    (∃ (s : State) (m : Master) (off : BitVec 24) (v : Word), off.toNat ∈ plainRegs ∧ masterLive s m = true ∧ m ≠ .lp ∧ rsvChanged
      s.core m off.toNat v = false ∧ s.snap.active = false ∧ off = 0x60040) ∧
    (∃ (s : State) (m : Master) (off : BitVec 24) (v : Word), (masterLive s m = true ∧ m ≠ .lp ∧ off.toNat % 4 = 0 ∧ isRam off.toNat
      = false ∧ isSag off.toNat = false ∧ mbxForeign m off.toNat = false) ∧ rsvChanged s.core m off.toNat v = true) ∧
    (∃ (s : State) (m : Master) (v : Word), masterLive s m = true ∧ masterBoth m = false ∧ m ≠ .lp ∧ (regv s.core 0x20108 ^^^ v) &&&
      0x7FFF ≠ 0 ∧ rsvChanged s.core m 0x20108 v = false) ∧
    (∃ (s : State) (be : BitVec 4), On s ∧ be ≠ 15) ∧
    (∃ (s : State) (be : BitVec 4), On s ∧ be ≠ 15 ∧ be = 14) ∧
    (∃ (s : State) (off : BitVec 24), On s ∧ s.sag.lpRun = true ∧ lpMay (off.toNat / 4 * 4) = false) ∧
    (∃ (s : State) (off : BitVec 24), On s ∧ s.sag.lpRun = true ∧ lpMay (off.toNat / 4 * 4) = false) ∧
    (∃ (s : State) (c : Core) (d : Fin 8) (a : Access), s.core = c ∧ (On s ∧ (dpGet c d).waiting = some a ∧ a.req.reg = true ∧
      regOffset a.req ∈ plainRegs ∧ (dpGet c d).closed = false ∧ (dpGet c d).fifo = []) ∧ (dpGet c d).tags = [] ∧ (dpGet c d).loads
      = [] ∧ (dpGet c d).older = 0 ∧ a.req.op = .load) ∧
    (∃ (s : State) (c : Core) (d : Fin 8) (a : Access), s.core = c ∧ (On s ∧ (dpGet c d).waiting = some a ∧ a.req.reg = true ∧
      regOffset a.req ∈ plainRegs ∧ (dpGet c d).closed = false ∧ (dpGet c d).fifo = []) ∧ (dpGet c d).tags = [] ∧ (dpGet c d).loads
      = [] ∧ (dpGet c d).older = 0 ∧ a.req.op = .store ∧ rsvChanged c (.direct d a.req.priv a.req.sec) (regOffset a.req) (payWord
      a.req.data (regOffset a.req % 64 / 4)) = false) ∧
    (∃ (s : State) (c : Core) (d : Fin 8) (a : Access), s.core = c ∧ (On s ∧ (dpGet c d).waiting = some a ∧ a.req.reg = true ∧
      regOffset a.req ∈ plainRegs ∧ (dpGet c d).closed = false ∧ (dpGet c d).fifo = []) ∧ (dpGet c d).tags = [] ∧ (dpGet c d).loads
      = [] ∧ (dpGet c d).older = 0 ∧ a.req.op = .load ∧ a = { req := { op := .load, src := 82, tag := 0, rid := 64, line := 6145, be := BitVec.ofNat 64 15, reg := true, data := BitVec.ofNat 512 (3 * 2 ^ 0) }, utag := 3, t0 := 0 }) ∧
    (∃ (s : State) (c : Core) (d : Fin 8) (a : Access), s.core = c ∧ (On s ∧ (dpGet c d).waiting = some a ∧ a.req.reg = true ∧
      regOffset a.req ∈ plainRegs ∧ (dpGet c d).closed = false ∧ (dpGet c d).fifo = []) ∧ (dpGet c d).tags = [] ∧ (dpGet c d).loads
      = [] ∧ (dpGet c d).older = 0 ∧ a.req.op = .store ∧ rsvChanged c (.direct d a.req.priv a.req.sec) (regOffset a.req) (payWord
      a.req.data (regOffset a.req % 64 / 4)) = false ∧ a = { req := { op := .store, src := 82, tag := 0, rid := 64, line := 6145, be := BitVec.ofNat 64 15, reg := true, data := BitVec.ofNat 512 (3 * 2 ^ 0) }, utag := 3, t0 := 0 }) ∧
    (∃ (s : State) (m : Master) (off : BitVec 24) (a : Nat), (masterLive s m = true ∧ m ≠ .lp ∧ off.toNat = 0x800000 + a ∧ a % 4 = 0
      ∧ a < pramSize ∧ NoFlip s.core) ∧ Inv s) ∧
    (∃ (s : State) (m : Master) (off : BitVec 24) (a : Nat), (masterLive s m = true ∧ m ≠ .lp ∧ off.toNat = 0x800000 + a ∧ a % 4 = 0
      ∧ a < pramSize ∧ NoFlip s.core) ∧ Inv s ∧ ramBad s a 4 = false) ∧
    (∃ (s : State) (m : Master) (off : BitVec 24) (a : Nat), (masterLive s m = true ∧ m ≠ .lp ∧ off.toNat = 0x800000 + a ∧ a % 4 = 0
      ∧ a < pramSize ∧ NoFlip s.core) ∧ Inv s ∧ off = 0x800000 + 0x3FFFC) ∧
    (∃ (s : State) (m : Master) (off : BitVec 24) (a : Nat), (masterLive s m = true ∧ m ≠ .lp ∧ off.toNat = 0x800000 + a ∧ a % 4 = 0
      ∧ a < pramSize ∧ NoFlip s.core) ∧ Inv s ∧ ramBad s a 4 = false ∧ off = 0x800000 + 0x3FFFC) :=
  ⟨⟨rdy, .host false false, 0x14, 1, by decide +kernel⟩,
   ⟨rdy, .host false false, 0x14, 1, by decide +kernel⟩,
   ⟨rdy, .host false false, 0x14, 1, by decide +kernel⟩,
   ⟨rdy, .host false false, 0x60040, 1, by decide +kernel⟩,
   ⟨rdy, .host false false, 0x60040, 1, by decide +kernel⟩,
   ⟨rdy, .host false false, 0x60040, 1, by decide +kernel⟩,
   ⟨rdy, .host true true, 0x60054, 2, by decide +kernel, by decide +kernel⟩,
   ⟨rdy, .host true false, 1, by decide +kernel⟩,
   ⟨rdy, 0, by decide +kernel⟩,
   ⟨rdy, 14, by decide +kernel⟩,
   ⟨{ rdy with sag := { lpRun := true } }, 0x14, by decide +kernel⟩,
   ⟨{ rdy with sag := { lpRun := true } }, 0x14, by decide +kernel⟩,
   ⟨{ rdy with
      core := { rdyC with
                dport := [(0,
                           { credits := crd
                             inCrd := crd
                             waiting := (some { req := { op := .load
                                                         src := 82
                                                         tag := 0
                                                         rid := 64
                                                         line := 0
                                                         be := BitVec.ofNat 64 15728640
                                                         reg := true
                                                         data := BitVec.ofNat 512 (3 * 2 ^ 160) }
                                                utag := 3
                                                t0 := 0 }) })] } }, _, 0,
    { req := { op := .load
               src := 82
               tag := 0
               rid := 64
               line := 0
               be := BitVec.ofNat 64 15728640
               reg := true
               data := BitVec.ofNat 512 (3 * 2 ^ 160) }
      utag := 3
      t0 := 0 }, rfl, by decide +kernel, by decide +kernel⟩,
   ⟨{ rdy with
      core := { rdyC with
                dport := [(0,
                           { credits := crd
                             inCrd := crd
                             waiting := (some { req := { op := .store
                                                         src := 82
                                                         tag := 0
                                                         rid := 64
                                                         line := 0
                                                         be := BitVec.ofNat 64 15728640
                                                         reg := true
                                                         data := BitVec.ofNat 512 (3 * 2 ^ 160) }
                                                utag := 3
                                                t0 := 0 }) })] } }, _, 0,
    { req := { op := .store
               src := 82
               tag := 0
               rid := 64
               line := 0
               be := BitVec.ofNat 64 15728640
               reg := true
               data := BitVec.ofNat 512 (3 * 2 ^ 160) }
      utag := 3
      t0 := 0 }, rfl, by decide +kernel, by decide +kernel⟩,
   ⟨{ rdy with
      core := { rdyC with
                dport := [(0,
                           { credits := crd
                             inCrd := crd
                             waiting := (some { req := { op := .load
                                                         src := 82
                                                         tag := 0
                                                         rid := 64
                                                         line := 6145
                                                         be := BitVec.ofNat 64 15
                                                         reg := true
                                                         data := BitVec.ofNat 512 (3 * 2 ^ 0) }
                                                utag := 3
                                                t0 := 0 }) })] } }, _, 0,
    { req := { op := .load
               src := 82
               tag := 0
               rid := 64
               line := 6145
               be := BitVec.ofNat 64 15
               reg := true
               data := BitVec.ofNat 512 (3 * 2 ^ 0) }
      utag := 3
      t0 := 0 }, rfl, by decide +kernel, by decide +kernel⟩,
   ⟨{ rdy with
      core := { rdyC with
                dport := [(0,
                           { credits := crd
                             inCrd := crd
                             waiting := (some { req := { op := .store
                                                         src := 82
                                                         tag := 0
                                                         rid := 64
                                                         line := 6145
                                                         be := BitVec.ofNat 64 15
                                                         reg := true
                                                         data := BitVec.ofNat 512 (3 * 2 ^ 0) }
                                                utag := 3
                                                t0 := 0 }) })] } }, _, 0,
    { req := { op := .store
               src := 82
               tag := 0
               rid := 64
               line := 6145
               be := BitVec.ofNat 64 15
               reg := true
               data := BitVec.ofNat 512 (3 * 2 ^ 0) }
      utag := 3
      t0 := 0 }, rfl, by decide +kernel, by decide +kernel⟩,
   ⟨rdy, .host true true, 0x800000 + 0, 0, by decide +kernel, by decide +kernel⟩,
   ⟨{ rdy with pram := [(0, 4)] }, .host true true, 0x800000 + 0, 0, by decide +kernel, by decide +kernel⟩,
   ⟨rdy, .host true true, 0x800000 + 0x3FFFC, 0x3FFFC, by decide +kernel, by decide +kernel⟩,
   ⟨{ rdy with pram := [(0x3FFFC, 4)] }, .host true true, 0x800000 + 0x3FFFC, 0x3FFFC, by decide +kernel, by decide +kernel⟩⟩

theorem witness_RegionCommands :
    (∃ (s : State) (c : Core) (m : Master) (r : Fin 16) (e : Region), s.core = c ∧ (MayAll s m ∧ mget c.rgn r {} = e ∧ e.wref =
      false ∧ e.pend = false ∧ c.st.cur ≠ .flush ∧ c.st.cur ≠ .halt) ∧ Calm c ∧ pinnedLines c (fun line => rgnIndex c line == some
      r.val) = [] ∧ (s.pers.genOpen = false ∨ needsRecord e = false)) ∧
    (∃ (s : State) (c : Core) (m : Master) (r : Fin 16) (e : Region), s.core = c ∧ (MayAll s m ∧ mget c.rgn r {} = e ∧ e.wref =
      false ∧ e.pend = false ∧ c.st.cur ≠ .flush ∧ c.st.cur ≠ .halt) ∧ Calm c ∧ pinnedLines c (fun line => rgnIndex c line == some
      r.val) = [] ∧ (s.pers.genOpen = false ∨ needsRecord e = false) ∧ r = 15) ∧
    (∃ (s : State) (c : Core) (m : Master) (r : Fin 16) (e : Region), s.core = c ∧ (MayAll s m ∧ mget c.rgn r {} = e ∧ e.wref =
      false ∧ e.pend = false ∧ c.st.cur ≠ .flush ∧ c.st.cur ≠ .halt) ∧ Calm c ∧ pinnedLines c (fun line => rgnIndex c line == some
      r.val) = [] ∧ s.pers.genOpen = true ∧ needsRecord e = true ∧ s.pers.write = none ∧ s.pers.commits = []) ∧
    (∃ (s : State) (c : Core) (m : Master), s.core = c ∧ MayAll s m) ∧
    (∃ (s : State) (c : Core) (m : Master) (r : Fin 16), s.core = c ∧ MayAll s m ∧ r = 15) ∧
    (∃ (s : State) (c : Core) (m : Master) (r : Fin 16) (e : Region), s.core = c ∧ MayAll s m ∧ mget c.rgn r {} = e ∧ e.wref = true
      ∧ e.wrefSetAt = now c + 1) ∧
    (∃ (s : State) (c : Core) (m : Master) (r : Fin 16) (e : Region), s.core = c ∧ MayAll s m ∧ mget c.rgn r {} = e ∧ e.wref = true
      ∧ e.wrefSetAt ≠ now c + 1 ∧ Calm c ∧ pinnedLines c (fun line => rgnIndex c line == some r.val) = []) :=
  ⟨⟨{ rdy with
      core := { rdyC with
                rgn := [(0, { cur := { limit := 0xFFFF, attr := 1 }, stage := { limit := 0x7FFF, attr := 1 } })]
                arr := { mon := [(0, { granule := 0, expiry := 0 }), (1, { granule := 2 ^ 30, expiry := 0 })] } } }, _, .host true true, 0,
    { cur := { limit := 0xFFFF, attr := 1 }, stage := { limit := 0x7FFF, attr := 1 } }, rfl, by decide +kernel, by decide +kernel⟩,
   ⟨{ rdy with
      core := { rdyC with
                rgn := [(15, { stage := { attr := 0x10 } })]
                arr := { mon := [(0, { granule := 0, expiry := 0 }), (1, { granule := 2 ^ 30, expiry := 0 })] } }
      pers := { genOpen := true } }, _, .host true true, 15, { stage := { attr := 0x10 } }, rfl, by decide +kernel, by decide +kernel⟩,
   ⟨{ rdy with
      core := { rdyC with
                rgn := [(15, { cur := { limit := 0xFFFF, attr := 1 }, stage := { limit := 0x7FFF, attr := 1 } })]
                arr := { mon := [(0, { granule := 0, expiry := 0 }), (1, { granule := 2 ^ 30, expiry := 0 })] } }
      pers := { genOpen := true } }, _, .host true true, 15,
    { cur := { limit := 0xFFFF, attr := 1 }, stage := { limit := 0x7FFF, attr := 1 } }, rfl, by decide +kernel, by decide +kernel⟩,
   ⟨rdy, _, .host true true, rfl, by decide +kernel⟩,
   ⟨rdy, _, .host true true, 15, rfl, by decide +kernel⟩,
   ⟨{ rdy with core := { rdyC with rgn := [(15, { wref := true, wrefSetAt := 1 })] } }, _, .host true true, 15,
    { wref := true, wrefSetAt := 1 }, rfl, by decide +kernel⟩,
   ⟨{ rdy with core := { rdyC with rgn := [(15, { wref := true, wrefSetAt := 0 })] } }, _, .host true true, 15,
    { wref := true, wrefSetAt := 0 }, rfl, by decide +kernel⟩⟩

theorem witness_PugAndLineCache :
    (∃ (s : State) (c : Core) (m : Master) (j : Fin 4) (v : Word), s.core = c ∧ (MayAll s m ∧ v.getLsbD 3 = true ∧ v.getLsbD 4 =
      false ∧ fld v 2 0 < 6 ∧ (mget c.pug j {}).busy = false ∧ rsvChanged c m (pugBase j.val + 0x18) v = false) ∧ pugLineAt c j 0 ≤
      pugLineAt c j 8) ∧
    (∃ (s : State) (c : Core) (m : Master) (j : Fin 4) (v : Word), s.core = c ∧ MayAll s m ∧ v.getLsbD 3 = false ∧ v.getLsbD 4 =
      true ∧ (mget c.pug j {}).busy = true ∧ rsvChanged c m (pugBase j.val + 0x18) v = false) ∧
    (∃ (s : State) (c : Core) (j : Fin 4) (p : PugJob), s.core = c ∧ (mget c.pug j {} = p ∧ p.busy = true ∧ p.issued = false ∧
      p.aborting = false ∧ (c.st.cur = .ready ∨ c.st.cur = .degraded) ∧ c.arr.trk = []) ∧ c.fab.reqs = [] ∧ lineType c (c.dom.inst *
      2 ^ 42 + p.next) = 1 ∧ above16T (c.dom.inst * 2 ^ 42 + p.next) = false) ∧
    (∃ (s : State) (c : Core) (j : Fin 4) (p : PugJob), s.core = c ∧ (mget c.pug j {} = p ∧ p.busy = true ∧ p.issued = false ∧
      p.aborting = false ∧ (c.st.cur = .ready ∨ c.st.cur = .degraded) ∧ c.arr.trk = []) ∧ c.fab.reqs = [] ∧ lineType c (c.dom.inst *
      2 ^ 42 + p.next) = 0 ∧ p.next < p.limit) ∧
    (∃ (s : State) (c : Core) (m : Master) (v : Word), s.core = c ∧ MayAll s m ∧ v.getLsbD 0 = false ∧ rsvChanged c m 0x30100 v =
      false) ∧
    (∃ (s : State) (c : Core) (m : Master) (v : Word), s.core = c ∧ MayAll s m ∧ v.getLsbD 0 = true ∧ rsvChanged c m 0x30100 v =
      false) :=
  ⟨⟨rdy, _, .host true true, 3, 0x8D, rfl, by decide +kernel, by decide +kernel⟩,
   ⟨{ rdy with core := { rdyC with pug := [(3, { busy := true })] } }, _, .host true true, 3, 0x10, rfl, by decide +kernel⟩,
   ⟨{ rdy with core := { rdyC with pug := [(3, { busy := true, typ := 4, pat := 9, next := 0, limit := 0 })] } }, _, 3,
    { busy := true, typ := 4, pat := 9, next := 0, limit := 0 }, rfl, by decide +kernel, by decide +kernel⟩,
   ⟨{ rdy with core := { rdyC with pug := [(3, { busy := true, typ := 4, next := 2 ^ 40, limit := 2 ^ 40 + 1 })] } }, _, 3,
    { busy := true, typ := 4, next := 2 ^ 40, limit := 2 ^ 40 + 1 }, rfl, by decide +kernel, by decide +kernel⟩,
   ⟨rdy, _, .host true true, 0, rfl, by decide +kernel⟩,
   ⟨{ rdy with core := { rdyC with lcBusy := true, lcStop := true } }, _, .host true true, 1, rfl, by decide +kernel⟩⟩

theorem witness_MailboxesBellsLocks :
    (∃ (s : State) (c : Core) (m : Master) (mb : Fin 16), s.core = c ∧ masterLive s m = true ∧ isSender mb m = true ∧ lpRefused m
      (0x10004 + 0x10 * mb.val) = false ∧ (mbxGet s mb).full = false) ∧
    (∃ (s : State) (c : Core) (m : Master) (mb : Fin 16), s.core = c ∧ masterLive s m = true ∧ isSender mb m = true ∧ lpRefused m
      (0x10004 + 0x10 * mb.val) = false ∧ (mbxGet s mb).full = true) ∧
    (∃ (s : State) (c : Core) (m : Master) (mb : Fin 16), s.core = c ∧ masterLive s m = true ∧ isSender mb m = true ∧ lpRefused m
      (0x10004 + 0x10 * mb.val) = false ∧ (mbxGet s mb).full = false ∧ mb = 7) ∧
    (∃ (s : State) (c : Core) (m : Master) (mb : Fin 16), s.core = c ∧ masterLive s m = true ∧ isSender mb m = true ∧ lpRefused m
      (0x10004 + 0x10 * mb.val) = false ∧ (mbxGet s mb).full = true ∧ mb = 7) ∧
    (∃ (s : State) (c : Core) (m : Master) (mb : Fin 16), s.core = c ∧ masterLive s m = true ∧ isSender mb m = true ∧ lpRefused m
      (0x10004 + 0x10 * mb.val) = false ∧ (mbxGet s mb).full = false ∧ m = .cp) ∧
    (∃ (s : State) (c : Core) (m : Master) (mb : Fin 16), s.core = c ∧ masterLive s m = true ∧ isSender mb m = true ∧ lpRefused m
      (0x10004 + 0x10 * mb.val) = false ∧ (mbxGet s mb).full = true ∧ m = .cp) ∧
    (∃ (s : State) (c : Core) (m : Master) (mb : Fin 16), s.core = c ∧ masterLive s m = true ∧ isSender mb m = true ∧ lpRefused m
      (0x10004 + 0x10 * mb.val) = false ∧ (mbxGet s mb).full = false ∧ m = .cp) ∧
    (∃ (s : State) (c : Core) (m : Master) (mb : Fin 16), s.core = c ∧ masterLive s m = true ∧ isSender mb m = true ∧ lpRefused m
      (0x10004 + 0x10 * mb.val) = false ∧ (mbxGet s mb).full = true ∧ m = .cp) ∧
    (∃ (s : State) (i : Fin 4), On s ∧ (mbxGet s (8 + i.val)).full = true ∧ s.ctl.replies = []) ∧
    (∃ (s : State) (mb : Fin 16) (x : Mailbox) (h : List Byte), (mb.val < 8 ∧ mbxGet s mb = x ∧ x.full = true ∧ cpTakes s = true ∧
      s.ctl.replies = [] ∧ (mbxGet s (8 + mb.val / 2)).full = false) ∧ (ptrWare x.ptr = false ∧ x.ptr.toNat / 2 ^ 48 % 2 ^ 15 = 0 ∧
      x.ptr.toNat % 64 = 0 ∧ ptrAddr x.ptr + 64 ≤ pramSize ∧ ramBad s (ptrAddr x.ptr) 64 = false ∧ NoFlip s.core) ∧ (Inv s ∧
      memGetBytes s.pram (ptrAddr x.ptr) 64 = h ∧ bnum h 2 2 = 0 ∧ bnum h 0 2 = 1 ∧ bnum h 6 2 = 0 ∧ bnum h 12 4 = 0) ∧
      s.ctl.run.any (fun y => y.op == 1) = false) ∧
    (∃ (s : State) (mb : Fin 16) (x : Mailbox) (h : List Byte), (mb.val < 8 ∧ mbxGet s mb = x ∧ x.full = true ∧ cpTakes s = true ∧
      s.ctl.replies = [] ∧ (mbxGet s (8 + mb.val / 2)).full = false) ∧ (ptrWare x.ptr = false ∧ x.ptr.toNat / 2 ^ 48 % 2 ^ 15 = 0 ∧
      x.ptr.toNat % 64 = 0 ∧ ptrAddr x.ptr + 64 ≤ pramSize ∧ ramBad s (ptrAddr x.ptr) 64 = false ∧ NoFlip s.core) ∧ Inv s ∧
      memGetBytes s.pram (ptrAddr x.ptr) 64 = h ∧ bnum h 2 2 = 0 ∧ cmdRow (bnum h 0 2) = none) ∧
    (∃ (s : State) (m : Master) (k : Fin 32) (l : Lock), masterLive s m = true ∧ mget s.ctl.lig k {} = l ∧ s.snap.active = false) ∧
    (∃ (s : State) (m : Master) (k : Fin 32) (l : Lock), masterLive s m = true ∧ mget s.ctl.lig k {} = l ∧ s.snap.active = false ∧ l
      = { owner := 2, broken := true, dead := 11 }) ∧
    (∃ (s : State) (m : Master) (k : Fin 32) (l : Lock), masterLive s m = true ∧ mget s.ctl.lig k {} = l ∧ l.owner = ownerOf m) ∧
    (∃ (s : State) (m : Master) (k : Fin 32) (l : Lock), masterLive s m = true ∧ mget s.ctl.lig k {} = l ∧ l.owner ≠ ownerOf m) ∧
    (∃ (s : State) (m : Master) (k : Fin 32) (l : Lock), masterLive s m = true ∧ mget s.ctl.lig k {} = l ∧ masterBoth m = true ∧
      l.owner ≠ 0) ∧
    (∃ (s : State) (m : Master) (k : Fin 32) (l : Lock), masterLive s m = true ∧ mget s.ctl.lig k {} = l ∧ masterBoth m = true ∧
      l.owner = 0) ∧
    (∃ (s : State) (m : Master) (k : Fin 32) (l : Lock), masterLive s m = true ∧ mget s.ctl.lig k {} = l ∧ masterBoth m = false) ∧
    (∃ (s : State) (m : Master) (i : Fin 4) (v : Word), masterLive s m = true ∧ m ≠ .lp ∧ rsvChanged s.core m (bellBase i.val + 8) v
      = false) ∧
    (∃ (s : State) (m : Master), masterLive s m = true ∧ m ≠ .lp) :=
  ⟨⟨rdy, _, .host false false, 0, rfl, by decide +kernel⟩,
   ⟨{ rdy with ctl := { up := true, mbx := [(0, { full := true })] } }, _, .host false false, 0, rfl, by decide +kernel⟩,
   ⟨rdy, _, .host false false, 7, rfl, by decide +kernel⟩,
   ⟨{ rdy with ctl := { up := true, mbx := [(7, { full := true })] } }, _, .host false false, 7, rfl, by decide +kernel⟩,
   ⟨rdy, _, .cp, 8, rfl, by decide +kernel⟩,
   ⟨{ rdy with ctl := { up := true, mbx := [(8, { full := true })] } }, _, .cp, 8, rfl, by decide +kernel⟩,
   ⟨rdy, _, .cp, 11, rfl, by decide +kernel⟩,
   ⟨{ rdy with ctl := { up := true, mbx := [(11, { full := true })] } }, _, .cp, 11, rfl, by decide +kernel⟩,
   ⟨{ rdy with ctl := { up := true, mbx := [(11, { full := true })] } }, 3, by decide +kernel⟩,
   ⟨{ rdy with pram := [(0x40, 1)], ctl := { up := true, mbx := [(7, { full := true, ptr := 0x40, wpriv := true, wsec := true })] } }, 7,
    { full := true, ptr := 0x40, wpriv := true, wsec := true }, memGetBytes [(0x40, 1)] 64 64, by decide +kernel, by decide +kernel,
    by decide +kernel, by decide +kernel⟩,
   ⟨{ rdy with pram := [(0x40, 0xFF)], ctl := { up := true, mbx := [(7, { full := true, ptr := 0x40, wpriv := true, wsec := true })] } },
    7, { full := true, ptr := 0x40, wpriv := true, wsec := true }, memGetBytes [(0x40, 0xFF)] 64 64, by decide +kernel, by decide +kernel,
    by decide +kernel⟩,
   ⟨{ rdy with ctl := { up := true, lig := [(31, {})] } }, .host false false, 31, {}, by decide +kernel⟩,
   ⟨{ rdy with ctl := { up := true, lig := [(31, { owner := 2, broken := true, dead := 11 })] } }, .host false false, 31,
    { owner := 2, broken := true, dead := 11 }, by decide +kernel⟩,
   ⟨{ rdy with ctl := { up := true, lig := [(31, { owner := 9 })] } }, .direct 7 false false, 31, { owner := 9 }, by decide +kernel⟩,
   ⟨{ rdy with ctl := { up := true, lig := [(31, { owner := 9 })] } }, .host false false, 31, { owner := 9 }, by decide +kernel⟩,
   ⟨{ rdy with ctl := { up := true, lig := [(31, { owner := 9 })] } }, .host true true, 31, { owner := 9 }, by decide +kernel⟩,
   ⟨{ rdy with ctl := { up := true, lig := [(31, { broken := true })] } }, .host true true, 31, { broken := true }, by decide +kernel⟩,
   ⟨{ rdy with ctl := { up := true, lig := [(31, { owner := 9 })] } }, .host false true, 31, { owner := 9 }, by decide +kernel⟩,
   ⟨rdy, .host false false, 3, 0x80000000, by decide +kernel⟩,
   ⟨{ rdy with
      core := { rdyC with
                tick := 4
                flags := [(flagKey (bellBase 3) 0, { bit := true, setAt := 5 }), (flagKey (bellBase 3) 31, { bit := true, setAt := 4 })] } },
    .host false false, by decide +kernel⟩⟩

theorem witness_SelectorsAndFlue :
    (∃ (s : State) (m : Master), masterLive s m = true ∧ m ≠ .lp ∧ fld (regv s.core 0x300) 31 4 = 0) ∧
    (∃ (s : State) (m : Master), masterLive s m = true ∧ m ≠ .lp ∧ fld (regv s.core 0x300) 31 4 = 0) ∧
    (∃ (s : State) (m : Master) (v : Word), masterLive s m = true ∧ m ≠ .lp ∧ rsvChanged s.core m 0x200 v = false) ∧
    (∃ (s : State) (m : Master) (v : Word), masterLive s m = true ∧ m ≠ .lp ∧ rsvChanged s.core m 0x200 v = false ∧ v = 41) ∧
    (∃ (s : State) (c : Core) (m : Master) (tg : Nat) (rq : Nat), s.core = c ∧ masterLive s m = true ∧ m ≠ .lp ∧ rsvChanged c m
      0x51020 1 = false ∧ arbSel c = some (tg, rq)) ∧
    (∃ (s : State) (c : Core) (m : Master), s.core = c ∧ masterLive s m = true ∧ m ≠ .lp ∧ rsvChanged c m 0x60054 1 = false) ∧
    (∃ (s : State) (c : Core) (m : Master) (v : Word), s.core = c ∧ masterLive s m = true ∧ m ≠ .lp ∧ rsvChanged c m 0x42000 v =
      false ∧ v.getLsbD 11 = true) ∧
    (∃ (s : State) (m : Master) (v : Word), MayAll s m ∧ v &&& 0x1800 = 0 ∧ rsvChanged s.core m 0x40010 v = false) ∧
    (∃ (s : State) (m : Master) (b : Fin 16) (v : Word), masterLive s m = true ∧ m ≠ .lp ∧ rsvChanged s.core m (bpPage b.val) v =
      false) ∧
    (∃ (s : State) (c : Core) (m : Master), s.core = c ∧ masterLive s m = true ∧ m ≠ .lp ∧ c.flue.old.words[c.flue.old.read]? =
      none) ∧
    (∃ (s : State) (c : Core) (m : Master) (x : _), s.core = c ∧ masterLive s m = true ∧ m ≠ .lp ∧
      c.flue.old.words[c.flue.old.read]? = some x ∧ x.bad = false) ∧
    (∃ (s : State) (c : Core), s.core = c ∧ On s ∧ c.flue.taking = true ∧ c.flue.new.isSome = true) :=
  ⟨⟨rdy, .host false false, by decide +kernel⟩,
   ⟨rdy, .host false false, by decide +kernel⟩,
   ⟨{ rdy with core := { rdyC with volt := { speed := [(40, 9)], temp := [(40, 8)] } } }, .host false false, 40, by decide +kernel⟩,
   ⟨{ rdy with core := { rdyC with volt := { speed := [(40, 9)], temp := [(40, 8)] } } }, .host false false, 41, by decide +kernel⟩,
   ⟨{ rdy with core := { rdyC with arb := [(arbSelKey 0 0, { grants := 3, waits := 2, maxWait := 1 })] } }, _, .host false false, 0, 0,
    rfl, by decide +kernel⟩,
   ⟨{ rdy with core := { rdyC with hist := [(injKey 0, 4), (ejKey 0, 5)] } }, _, .host false false, rfl, by decide +kernel⟩,
   ⟨rdy, _, .host false false, wd (regInfo 0x42000).reset ||| 0x800, rfl, by decide +kernel⟩,
   ⟨rdy, .host true true, 1, by decide +kernel⟩,
   ⟨rdy, .host false false, 15, 0x40000, by decide +kernel⟩,
   ⟨rdy, _, .host false false, rfl, by decide +kernel⟩,
   ⟨{ rdy with core := { rdyC with flue := { old := { words := [{ w := 9, first := true, gap := true }] } } } }, _, .host false false,
    ({ w := 9, first := true, gap := true } : FWord), rfl, by decide +kernel⟩,
   ⟨{ rdy with core := { rdyC with flue := { taking := true, new := some {}, old := { words := [{ w := 9, first := true }] } } } }, _, rfl,
    by decide +kernel⟩⟩

theorem witness_CommandsReply :
    (∃ (s : State) (x : Cmd) (b : Nat) (p : BitVec 64), Taken s 0x01 0 x b p) ∧
    (∃ (s : State) (x : Cmd) (b : Nat) (p : BitVec 64), Taken s 0x02 0 x b p) ∧
    (∃ (s : State) (x : Cmd) (b : Nat) (p : BitVec 64), Taken s 0x03 0 x b p ∧ s.core.pol.bounds.length + 2 *
      s.core.pol.health.length ≤ 1520) ∧
    (∃ (s : State) (x : Cmd) (b : Nat) (p : BitVec 64), Taken s 0x20 0 x b p) ∧
    (∃ (s : State) (x : Cmd) (b : Nat) (p : BitVec 64), Taken s 0x22 0 x b p) ∧
    (∃ (s : State) (x : Cmd) (b : Nat) (p : BitVec 64), Taken s 0x43 0 x b p) ∧
    (∃ (s : State) (x : Cmd) (b : Nat) (p : BitVec 64) (op : BitVec 16), Taken s op.toNat 0 x b p ∧ s.ctl.run.find? (fun y => y.op
      == op.toNat && decide (y.t0 + y.limit ≤ now s.core)) = some x) ∧
    (∃ (s : State) (x : Cmd) (rtag : Nat) (i : Nat), cmdAt s 0x01 0 = some x ∧ x.domain = false ∧ x.origin = .relay rtag i ∧ cpRuns
      s = true ∧ On s) :=
  ⟨⟨runS rdyC (cmd0 0x01 0 []), cmd0 0x01 0 [], 7, 0x40, by decide +kernel⟩,
   ⟨runS rdyC (cmd0 0x02 0 []), cmd0 0x02 0 [], 7, 0x40, by decide +kernel⟩,
   ⟨runS rdyC (cmd0 0x03 0 []), cmd0 0x03 0 [], 7, 0x40, by decide +kernel⟩,
   ⟨runS rdyC (cmd0 0x20 0 (List.replicate 32 1)), cmd0 0x20 0 (List.replicate 32 1), 7, 0x40, by decide +kernel⟩,
   ⟨runS rdyC (cmd0 0x22 0 (List.replicate 32 1)), cmd0 0x22 0 (List.replicate 32 1), 7, 0x40, by decide +kernel⟩,
   ⟨{ runS rdyC (cmd0 0x43 0 []) with sag := { debugOpen := 7 } }, cmd0 0x43 0 [], 7, 0x40, by decide +kernel⟩,
   ⟨runS { rdyC with tick := 100 } (cmd0 0x01 0 []), cmd0 0x01 0 [], 7, 0x40, 1, by decide +kernel⟩,
   ⟨runS rdyC { cmd0 1 0 [] with origin := .relay 9 1 }, { cmd0 1 0 [] with origin := .relay 9 1 }, 9, 1, by decide +kernel⟩⟩

theorem witness_BlockStates :
    (∃ (s : State) (x : Cmd), cmdAt s 0x10 0 = some x ∧ cpRuns s = true ∧ On s) ∧
    (∃ (s : State) (x : Cmd) (b : Nat) (p : BitVec 64), Taken s 0x10 1 x b p ∧ (s.core.st.cur = .ready ∨ s.core.st.cur = .degraded)
      ∧ allQuiet s.core = true) ∧
    (∃ (s : State) (x : Cmd) (b : Nat) (p : BitVec 64), Taken s 0x10 1 x b p ∧ (s.core.st.cur = .ready ∨ s.core.st.cur = .degraded)
      ∧ allQuiet s.core = false) ∧
    (∃ (s : State) (x : Cmd) (b : Nat) (p : BitVec 64), Taken s 0x11 0 x b p ∧ s.core.st.cur = .quiesced ∧ anyOneCopy s.core =
      false) ∧
    (∃ (s : State) (x : Cmd) (b : Nat) (p : BitVec 64), Taken s 0x11 0 x b p ∧ s.core.st.cur = .quiesced ∧ anyOneCopy s.core = true
      ∧ spareReady s.bisq = none) ∧
    (∃ (s : State) (x : Cmd) (b : Nat) (p : BitVec 64), Taken s 0x12 0 x b p ∧ s.core.st.cur = .quiesced) ∧
    (∃ (s : State) (x : Cmd) (b : Nat) (p : BitVec 64), Taken s 0x13 0 x b p ∧ s.core.st.cur = .service) ∧
    (∃ (s : State) (x : Cmd), cmdAt s 0x14 0 = some x ∧ s.ctl.run = [x] ∧ cpRuns s = true ∧ (s.core.st.cur = .ready ∨ s.core.st.cur
      = .quiesced ∨ s.core.st.cur = .degraded ∨ s.core.st.cur = .service) ∧ Idle s) :=
  ⟨⟨runS rdyC (cmd0 0x10 0 []), cmd0 0x10 0 [], by decide +kernel⟩,
   ⟨runS rdyC (cmd0 0x10 1 []), cmd0 0x10 1 [], 7, 0x40, by decide +kernel⟩,
   ⟨runS { rdyC with dport := [(7, { psb := [psb0] })] } (cmd0 0x10 1 []), cmd0 0x10 1 [], 7, 0x40, by decide +kernel⟩,
   ⟨runS { rdyC with st := { cur := .quiesced } } (cmd0 0x11 0 []), cmd0 0x11 0 [], 7, 0x40, by decide +kernel⟩,
   ⟨{ runS { rdyC with st := { cur := .quiesced }, bearer := [(0, 1)], out := [0] } (cmd0 0x11 0 []) with bisq := { spare := none } },
    cmd0 0x11 0 [], 7, 0x40, by decide +kernel⟩,
   ⟨runS { rdyC with st := { cur := .quiesced } } (cmd0 0x12 0 []), cmd0 0x12 0 [], 7, 0x40, by decide +kernel⟩,
   ⟨runS { rdyC with st := { cur := .service } } (cmd0 0x13 0 []), cmd0 0x13 0 [], 7, 0x40, by decide +kernel⟩,
   ⟨runS { st := { cur := .ready } } (cmd0 0x14 0 []), cmd0 0x14 0 [], by decide +kernel⟩⟩

theorem witness_WareAndFirmware :
    (∃ (s : State) (x : Cmd) (b : Nat) (p : BitVec 64), Taken s 0x21 0 x b p ∧ Calm s.core ∧ bnum x.params 0 4 ≤ s.core.arr.wcap) ∧
    (∃ (s : State) (x : Cmd) (b : Nat) (p : BitVec 64), Taken s 0x21 0 x b p ∧ Calm s.core ∧ s.core.arr.wcap < bnum x.params 0 4 ∧
      s.core.arr.lc = []) ∧
    (∃ (s : State) (x : Cmd) (b : Nat) (p : BitVec 64) (w : Nat), Taken s 0x21 1 x b p ∧ Calm s.core ∧ s.core.arr.wgoal = some w ∧
      s.core.arr.lc = []) ∧
    (∃ (s : State) (x : Cmd) (b : Nat) (p : BitVec 64) (c : Core) (l : List Byte), Taken s 0x40 0 x b p ∧ bnum x.params 0 4 < 3 ∧
      wareBytes ((bnum x.params 12 4 + 63) / 64) s.core (addrLine s.core (bnum x.params 4 8)) [] = (some l, c) ∧ NoFlip c ∧ c.tick =
      s.core.tick ∧ imageGood (bnum x.params 0 4) (l.take (bnum x.params 12 4)) = false) ∧
    (∃ (s : State) (x : Cmd) (b : Nat) (p : BitVec 64), Taken s 0x40 1 x b p ∧ bnum x.params 0 4 < 3) ∧
    (∃ (s : State) (x : Cmd) (b : Nat) (p : BitVec 64), Taken s 0x40 1 x b p ∧ bnum x.params 0 4 = 3 ∧ s.pwr.vddsWarn = false ∧
      lpGone s = false) :=
  ⟨⟨runS { rdyC with arr := { wcap := 8, ware := [(0, {}), (524287, {})] } } (cmd0 0x21 0 (leBytes 8 4)), cmd0 0x21 0 (leBytes 8 4), 7,
    0x40, by decide +kernel⟩,
   ⟨runS rdyC (cmd0 0x21 0 (leBytes 8 4)), cmd0 0x21 0 (leBytes 8 4), 7, 0x40, by decide +kernel⟩,
   ⟨runS { rdyC with arr := { wgoal := some 8 } } (cmd0 0x21 1 (leBytes 8 4)), cmd0 0x21 1 (leBytes 8 4), 7, 0x40, 8, by decide +kernel⟩,
   ⟨runS (wareC (hReq .load)) (cmd0 0x40 0 (leBytes 2 4 ++ leBytes 0 8 ++ leBytes 64 4)),
    cmd0 0x40 0 (leBytes 2 4 ++ leBytes 0 8 ++ leBytes 64 4), 7, 0x40, wareC (hReq .load), 5 :: List.replicate 63 0, by decide +kernel⟩,
   ⟨runS rdyC (cmd0 0x40 1 (leBytes 2 4)), cmd0 0x40 1 (leBytes 2 4), 7, 0x40, by decide +kernel⟩,
   ⟨runS rdyC (cmd0 0x40 1 (leBytes 3 4)), cmd0 0x40 1 (leBytes 3 4), 7, 0x40, by decide +kernel⟩⟩

theorem witness_KeysAndSecrets :
    (∃ (s : State) (x : Cmd) (b : Nat) (p : BitVec 64) (k : Nat) (v : KeySlot) (kcv : Nat), ((bnum x.params 1 1 = 1 ∧ v = .bypass ∧ kcv = 0)
      ∨ (bnum x.params 1 1 = 2 ∧ v = .empty ∧ kcv = 0) ∨ (bnum x.params 1 1 = 0 ∧ ∃ y, Config.unwrapKey k x.params = some y ∧
      y.extractLsb' 0 256 ≠ y.extractLsb' 256 256 ∧ v = .key y ∧ kcv = (Config.keyCheck y).toNat)) ∧ (Taken s 0x41 0 x b p ∧ lpGone
      s = false ∧ s.pwr.vddsWarn = false ∧ bnum x.params 0 1 = k ∧ Calm s.core ∧ s.core.reads = []) ∧ s.core.bundles = [] ∧
      s.core.keyNext = [] ∧ s.core.arr.lc = [] ∧ s.core.arr.hold = []) ∧
    (∃ (s : State) (x : Cmd) (b : Nat) (p : BitVec 64) (k : Nat) (v : KeySlot) (kcv : Nat), ((bnum x.params 1 1 = 1 ∧ v = .bypass ∧ kcv = 0)
      ∨ (bnum x.params 1 1 = 2 ∧ v = .empty ∧ kcv = 0) ∨ (bnum x.params 1 1 = 0 ∧ ∃ y, Config.unwrapKey k x.params = some y ∧
      y.extractLsb' 0 256 ≠ y.extractLsb' 256 256 ∧ v = .key y ∧ kcv = (Config.keyCheck y).toNat)) ∧ (Taken s 0x41 0 x b p ∧ lpGone
      s = false ∧ s.pwr.vddsWarn = false ∧ bnum x.params 0 1 = k ∧ Calm s.core ∧ s.core.reads = []) ∧ s.core.bundles = [] ∧
      s.core.keyNext = [] ∧ s.core.arr.lc = [] ∧ s.core.arr.hold = [] ∧ x = cmd0 0x41 0 [15, 2, 0, 0]) ∧
    (∃ (s : State) (x : Cmd), cmdAt s 0x44 0 = some x ∧ cpRuns s = true ∧ On s ∧ lpGone s = false ∧ s.pwr.vddsWarn = false) ∧
    (∃ (s : State) (x : Cmd) (b : Nat) (p : BitVec 64), Taken s 0x44 1 x b p ∧ lpGone s = false ∧ s.pwr.vddsWarn = false ∧ (bnum
      x.params 2 2 % 2 = 0 ∨ (Calm s.core ∧ s.core.arr.lc = [] ∧ s.core.arr.hold = []))) ∧
    (∃ (s : State) (x : Cmd) (b : Nat) (p : BitVec 64), Taken s 0x45 0 x b p ∧ lpGone s = false ∧ s.pwr.vddsWarn = false ∧
      s.sag.loopOpen = true) ∧
    (∃ (s : State) (x : Cmd) (b : Nat) (p : BitVec 64), Taken s 0x46 0 x b p ∧ lpGone s = true) ∧
    (∃ (s : State) (x : Cmd) (b : Nat) (p : BitVec 64), Taken s 0x46 0 x b p ∧ lpGone s = false ∧ bnum x.params 32 1 = 0xFF) ∧
    (∃ (ir : BitVec 8), publicIr ir = true) ∧
    (∃ (s : State) (ir : BitVec 8), publicIr ir = false ∧ s.sag.debugOpen.getLsbD 1 = false ∧ On s) ∧
    (∃ (s : State) (ir : BitVec 8), publicIr ir = false ∧ s.sag.debugOpen.getLsbD 1 = true) :=
  ⟨⟨runS rdyC (cmd0 0x41 0 [15, 1, 0, 0]), cmd0 0x41 0 [15, 1, 0, 0], 7, 0x40, 15, KeySlot.bypass, 0,
    by first | exact .inl ⟨rfl, rfl, rfl⟩ | exact .inr (.inl ⟨rfl, rfl, rfl⟩), by decide +kernel, by decide +kernel⟩,
   ⟨runS rdyC (cmd0 0x41 0 [15, 2, 0, 0]), cmd0 0x41 0 [15, 2, 0, 0], 7, 0x40, 15, KeySlot.empty, 0,
    by first | exact .inl ⟨rfl, rfl, rfl⟩ | exact .inr (.inl ⟨rfl, rfl, rfl⟩), by decide +kernel, by decide +kernel⟩,
   ⟨{ runS rdyC (cmd0 0x44 0 [0, 0x80, 0, 0]) with sag := { lpRun := true, keyRecs := [(0, .bypass), (15, .bypass)] } },
    cmd0 0x44 0 [0, 0x80, 0, 0], by decide +kernel⟩,
   ⟨runS rdyC (cmd0 0x44 1 [0, 0x80, 1, 0]), cmd0 0x44 1 [0, 0x80, 1, 0], 7, 0x40, by decide +kernel⟩,
   ⟨{ runS rdyC (cmd0 0x45 0 []) with sag := { lpRun := true, loopOpen := true } }, cmd0 0x45 0 [], 7, 0x40, by decide +kernel⟩,
   ⟨{ runS rdyC (cmd0 0x46 0 (List.replicate 36 0xFF)) with sag := {} }, cmd0 0x46 0 (List.replicate 36 0xFF), 7, 0x40, by decide +kernel⟩,
   ⟨runS rdyC (cmd0 0x46 0 (List.replicate 36 0xFF)), cmd0 0x46 0 (List.replicate 36 0xFF), 7, 0x40, by decide +kernel⟩,
   ⟨0xFF, by decide +kernel⟩,
   ⟨rdy, 2, by decide +kernel⟩,
   ⟨{ rdy with sag := { debugOpen := 2 } }, 2, by decide +kernel⟩⟩

theorem witness_DomainCommands :
    (∃ (s : State) (x : Cmd), cmdAt s 0x30 0 = some x ∧ cpRuns s = true ∧ On s ∧ s.core.dom.role = false ∧ cmdAt s 0x32 1 = none) ∧
    (∃ (s : State) (x : Cmd) (b : Nat) (p : BitVec 64), (Taken s 0x30 0 x b p ∧ s.ctl.run = [x] ∧ s.core.dom.role = true ∧
      s.core.dom.inst < 16 ∧ others s.core = [] ∧ s.core.dom.arrived = []) ∧ s.core.dom.barrier = none) ∧
    (∃ (s : State) (x : Cmd) (b : Nat) (p : BitVec 64), (∀ i, isMember s.core i = false → activeRoute s.core i = none) ∧ Taken s
      0x31 0 x b p ∧ s.core.dom.role = true ∧ s.core.dom.arrived = [] ∧ cmdAt s 0x32 1 = none) ∧
    (∃ (s : State) (x : Cmd), (cmdAt s 0x32 0 = some x ∧ cpRuns s = true ∧ On s ∧ s.core.dom.role = false ∧ cmdAt s 0x32 1 = none ∧
      bnum x.params 0 1 = s.core.dom.inst) ∧ others s.core ≠ []) ∧
    (∃ (s : State) (m : SpanMsg) (c : Core) (d : Core), (∀ b, barrierFull d b = false) ∧ (On s ∧ hpRuns s = true ∧ takeMgt s.core 8
      = some (m, c) ∧ c.dom.role = true ∧ c.dom.arrived.contains (mgtNum m 8 2, m.src) = false ∧ cmdAt s 0x32 1 = none) ∧ d = domMod
      c (fun y => { y with arrived := y.arrived ++ [(mgtNum m 8 2, m.src)] })) ∧
    (∃ (s : State) (m : SpanMsg) (c : Core) (x : Cmd) (b : Nat) (p : BitVec 64), Taken s 0x30 1 x b p ∧ hpRuns s = true ∧ takeMgt
      s.core 9 = some (m, c) ∧ s.core.dom.barrier = some (mgtNum m 8 2)) ∧
    (∃ (s : State) (m : SpanMsg) (c : Core) (h : List Byte), (On s ∧ cpTakes s = true ∧ takeMgt s.core 6 = some (m, c) ∧ m.src =
      c.dom.chanter ∧ ((mgtBytes m).drop 16).take 64 = h ∧ bnum h 0 2 = 1) ∧ bnum h 2 2 = 0 ∧ bnum h 6 2 = 0 ∧ bnum h 12 4 = 0 ∧
      s.ctl.run.any (fun y => y.op == 1) = false) ∧
    (∃ (s : State) (m : SpanMsg) (c : Core) (x : Cmd) (y : Cmd), (On s ∧ cpRuns s = true ∧ takeMgt s.core 7 = some (m, c) ∧
      s.ctl.run.find? (fun z => z.rtags.contains (mgtNum m 8 4, m.src)) = some x ∧ mfind? x.stats m.src = none ∧ y = { x with stats := mput x.stats m.src (mgtNum m 12 2) })
      ∧ (List.range 16).all (fun i => !y.targets.getLsbD i || (mfind? y.stats i).isSome) = false) ∧
    (∃ (s : State) (m : SpanMsg) (c : Core) (x : Cmd) (y : Cmd) (b : _) (p : _), (On s ∧ cpRuns s = true ∧ takeMgt s.core 7 = some
      (m, c) ∧ s.ctl.run.find? (fun z => z.rtags.contains (mgtNum m 8 4, m.src)) = some x ∧ mfind? x.stats m.src = none ∧ y = { x with stats := mput x.stats m.src (mgtNum m 12 2) })
      ∧ ((List.range 16).all (fun i => !y.targets.getLsbD i || (mfind? y.stats i).isSome) = true ∧ s.ctl.run = [x] ∧ x.origin = .box
      b p ∧ ptrWare p = false ∧ ptrAddr p + 96 ≤ pramSize ∧ NoFlip s.core) ∧ Inv s) :=
  ⟨⟨runS { rdyC with dom := { inst := 2, chanter := 1, role := false, strap := false, members := 7 } } (cmd0 0x30 0 [5, 0]),
    cmd0 0x30 0 [5, 0], by decide +kernel⟩,
   ⟨runS rdyC (cmd0 0x30 0 [5, 0]), cmd0 0x30 0 [5, 0], 7, 0x40, by decide +kernel, by decide +kernel⟩,
   ⟨runS rdyC (cmd0 0x31 0 [0xFF, 0xFF]), cmd0 0x31 0 [0xFF, 0xFF], 7, 0x40, fun _ _ => rfl, by decide +kernel⟩,
   ⟨runS { rdyC with dom := { inst := 2, chanter := 1, role := false, strap := false, members := 7 } } (cmd0 0x32 0 [2, 0, 0, 0]),
    cmd0 0x32 0 [2, 0, 0, 0], by decide +kernel, by decide +kernel⟩,
   ⟨{ rdy with core := { rdyC with dom := { members := 7, mgtIn := [mgtM 8 1 [5, 0]] } } }, mgtM 8 1 [5, 0],
    { rdyC with dom := { members := 7 } },
    domMod { rdyC with dom := { members := 7 } } (fun y => { y with arrived := y.arrived ++ [(5, 1)] }),
    fun b => by rw [barrierFull, List.all_eq_false]; exact ⟨0, by decide, by simp [domMod, isMember, isLeaving, rdyC]⟩, by decide +kernel,
    by decide +kernel⟩,
   ⟨runS { rdyC with
      dom := { inst := 2, chanter := 1, role := false, strap := false, members := 7, barrier := some 5, mgtIn := [mgtM 9 1 [5, 0]] } } (cmd0 0x30 1 [5,
                                                                                                                                                     0]),
    mgtM 9 1 [5, 0], { rdyC with dom := { inst := 2, chanter := 1, role := false, strap := false, members := 7, barrier := some 5 } },
    cmd0 0x30 1 [5, 0], 7, 0x40, by decide +kernel⟩,
   ⟨{ rdy with
      core := { rdyC with
                dom := { inst := 2
                         chanter := 1
                         role := false
                         strap := false
                         members := 7
                         mgtIn := [{ src := 1
                                     dst := 0
                                     gw := 0
                                     eseq := 0
                                     msg := .mgtPkt
                                     flits := mgtFlits ([6, 1, 0, 0, 0, 0, 0, 0] ++ leBytes 3 4 ++ leBytes 0 4 ++ 1 :: List.replicate 63 0) }] } } },
    { src := 1
      dst := 0
      gw := 0
      eseq := 0
      msg := .mgtPkt
      flits := mgtFlits ([6, 1, 0, 0, 0, 0, 0, 0] ++ leBytes 3 4 ++ leBytes 0 4 ++ 1 :: List.replicate 63 0) },
    { rdyC with dom := { inst := 2, chanter := 1, role := false, strap := false, members := 7 } }, 1 :: List.replicate 63 0,
    by decide +kernel, by decide +kernel⟩,
   ⟨runS { rdyC with
      dom := { members := 7, mgtIn := [mgtM 7 1 [4, 0, 0, 0, 0, 0]] } } { cmd0 0x43 0 [] with
                                                                         domain := true
                                                                         targets := 7
                                                                         stats := [(0, 0)]
                                                                         rtags := [(4, 1), (5, 2)] }, mgtM 7 1 [4, 0, 0, 0, 0, 0],
    { rdyC with dom := { members := 7 } },
    { cmd0 0x43 0 [] with domain := true, targets := 7, stats := [(0, 0)], rtags := [(4, 1), (5, 2)] },
    { cmd0 0x43 0 [] with domain := true, targets := 7, stats := [(0, 0), (1, 0)], rtags := [(4, 1), (5, 2)] }, by decide +kernel,
    by decide +kernel⟩,
   ⟨runS { rdyC with
      dom := { members := 7, mgtIn := [mgtM 7 1 [4, 0, 0, 0, 0, 0]] } } { cmd0 0x43 0 [] with
                                                                         domain := true
                                                                         targets := 3
                                                                         stats := [(0, 0)]
                                                                         rtags := [(4, 1), (5, 2)] }, mgtM 7 1 [4, 0, 0, 0, 0, 0],
    { rdyC with dom := { members := 7 } },
    { cmd0 0x43 0 [] with domain := true, targets := 3, stats := [(0, 0)], rtags := [(4, 1), (5, 2)] },
    { cmd0 0x43 0 [] with domain := true, targets := 3, stats := [(0, 0), (1, 0)], rtags := [(4, 1), (5, 2)] }, 7, 0x40, by decide +kernel,
    by decide +kernel, by decide +kernel⟩⟩

theorem witness_DomainTimeAndMaps :
    (∃ (s : State) (m : SpanMsg) (c : Core), (On s ∧ hpRuns s = true ∧ takeMgt s.core 4 = some (m, c) ∧ c.dom.role = false ∧
      c.dom.chanter = m.src ∧ aheadOf 32 (mgtNum m 16 4) c.dom.mver = false) ∧ cmdAt s 0x32 1 = none ∧ (((mgtNum m 8 8 + c.dom.delay
      : Nat) : Int) - c.dom.time.toNat).natAbs ≤ 64) ∧
    (∃ (s : State) (m : SpanMsg) (c : Core), (On s ∧ hpRuns s = true ∧ takeMgt s.core 4 = some (m, c) ∧ c.dom.role = false ∧
      c.dom.chanter = m.src ∧ aheadOf 32 (mgtNum m 16 4) c.dom.mver = false) ∧ cmdAt s 0x32 1 = none ∧ c.dom.time.toNat + 64 <
      mgtNum m 8 8 + c.dom.delay) ∧
    (∃ (s : State) (m : SpanMsg) (c : Core), (On s ∧ hpRuns s = true ∧ takeMgt s.core 4 = some (m, c) ∧ c.dom.role = false ∧
      c.dom.chanter = m.src ∧ aheadOf 32 (mgtNum m 16 4) c.dom.mver = false) ∧ cmdAt s 0x32 1 = none ∧ mgtNum m 8 8 + c.dom.delay +
      64 < c.dom.time.toNat) ∧
    (∃ (s : State), (On s ∧ hpRuns s = true ∧ cmdAt s 0x32 1 = none ∧ s.core.dom.arrived = [] ∧ s.core.dom.role = true ∧
      s.core.dom.lastBeatSent + 2 ^ 14 ≤ now s.core) ∧ s.core.dom.join = 0) ∧
    (∃ (s : State), On s ∧ hpRuns s = true ∧ cmdAt s 0x32 1 = none ∧ s.core.dom.arrived = [] ∧ s.core.dom.role = false) ∧
    (∃ (s : State) (m : SpanMsg) (c : Core), On s ∧ hpRuns s = true ∧ takeMgt s.core 5 = some (m, c) ∧ mgtNum m 8 1 = 0 ∧ c.dom.role
      = true) ∧
    (∃ (s : State) (m : SpanMsg) (c : Core), (On s ∧ hpRuns s = true ∧ takeMgt s.core 5 = some (m, c) ∧ mgtNum m 8 1 ≠ 0 ∧
      c.dom.role = false ∧ m.src = c.dom.chanter) ∧ mgtNum m 12 4 = c.dom.echoId) ∧
    (∃ (s : State), On s ∧ hpRuns s = true ∧ s.core.dom.role = false) ∧
    (∃ (s : State), On s ∧ hpRuns s = true ∧ s.core.dom.role = false ∧ s.core.dom.lastBeat + 65536 ≤ now s.core) ∧
    (∃ (s : State) (m : SpanMsg) (c : Core), On s ∧ hpRuns s = true ∧ takeMgt s.core 0xC = some (m, c) ∧ c.dom.role = false ∧ cmdAt
      s 0x32 1 = none ∧ aheadOf 32 (mgtNum m 12 4) c.dom.mver = false) ∧
    (∃ (s : State) (m : SpanMsg) (c : Core) (M : BitVec 16), (∀ i, c.dom.members.getLsbD i = true → M.getLsbD i = true) ∧ (On s ∧
      hpRuns s = true ∧ takeMgt s.core 0xC = some (m, c) ∧ c.dom.role = false ∧ cmdAt s 0x32 1 = none ∧ aheadOf 32 (mgtNum m 12 4)
      c.dom.mver = true) ∧ BitVec.ofNat 16 (mgtNum m 8 2) = M ∧ M.getLsbD c.dom.inst = true ∧ M.getLsbD c.dom.chanter = true ∧ c.arr
      = {} ∧ c.gw = [] ∧ mgtNum m 10 2 = 0) :=
  ⟨⟨{ rdy with
      core := { rdyC with
                dom := { inst := 2
                         chanter := 1
                         role := false
                         strap := false
                         members := 7
                         delay := 0
                         time := 36
                         mgtIn := [mgtM 4 1 [100, 0, 0, 0, 0, 0, 0, 0, 0, 0, 0, 0, 7, 0, 0, 0]] } } },
    mgtM 4 1 [100, 0, 0, 0, 0, 0, 0, 0, 0, 0, 0, 0, 7, 0, 0, 0],
    { rdyC with dom := { inst := 2, chanter := 1, role := false, strap := false, members := 7, delay := 0, time := 36 } },
    by decide +kernel, by decide +kernel⟩,
   ⟨{ rdy with
      core := { rdyC with
                dom := { inst := 2
                         chanter := 1
                         role := false
                         strap := false
                         members := 7
                         delay := 0
                         time := 35
                         mgtIn := [mgtM 4 1 [100, 0, 0, 0, 0, 0, 0, 0, 0, 0, 0, 0, 7, 0, 0, 0]] } } },
    mgtM 4 1 [100, 0, 0, 0, 0, 0, 0, 0, 0, 0, 0, 0, 7, 0, 0, 0],
    { rdyC with dom := { inst := 2, chanter := 1, role := false, strap := false, members := 7, delay := 0, time := 35 } },
    by decide +kernel, by decide +kernel⟩,
   ⟨{ rdy with
      core := { rdyC with
                dom := { inst := 2
                         chanter := 1
                         role := false
                         strap := false
                         members := 7
                         delay := 0
                         time := 165
                         mgtIn := [mgtM 4 1 [100, 0, 0, 0, 0, 0, 0, 0, 0, 0, 0, 0, 7, 0, 0, 0]] } } },
    mgtM 4 1 [100, 0, 0, 0, 0, 0, 0, 0, 0, 0, 0, 0, 7, 0, 0, 0],
    { rdyC with dom := { inst := 2, chanter := 1, role := false, strap := false, members := 7, delay := 0, time := 165 } },
    by decide +kernel, by decide +kernel⟩,
   ⟨{ rdy with core := { rdyC with tick := 16384, dom := { members := 7 } } }, by decide +kernel, by decide +kernel⟩,
   ⟨{ rdy with core := { rdyC with dom := { inst := 2, chanter := 1, role := false, strap := false, members := 7 } } }, by decide +kernel⟩,
   ⟨{ rdy with core := { rdyC with dom := { members := 7, mgtIn := [mgtM 5 1 [0, 0, 0, 0, 9, 0, 0, 0, 1, 1, 1, 1, 1, 1, 1, 1]] } } },
    mgtM 5 1 [0, 0, 0, 0, 9, 0, 0, 0, 1, 1, 1, 1, 1, 1, 1, 1], { rdyC with dom := { members := 7 } }, by decide +kernel⟩,
   ⟨{ rdy with
      core := { rdyC with
                tick := 100
                dom := { inst := 2
                         chanter := 1
                         role := false
                         strap := false
                         members := 7
                         echoId := 9
                         mgtIn := [mgtM 5 1 [1, 0, 0, 0, 9, 0, 0, 0, 1, 0, 0, 0, 0, 0, 0, 0, 7, 0, 0, 0, 0, 0, 0, 0]] } } },
    mgtM 5 1 [1, 0, 0, 0, 9, 0, 0, 0, 1, 0, 0, 0, 0, 0, 0, 0, 7, 0, 0, 0, 0, 0, 0, 0],
    { rdyC with tick := 100, dom := { inst := 2, chanter := 1, role := false, strap := false, members := 7, echoId := 9 } },
    by decide +kernel, by decide +kernel⟩,
   ⟨{ rdy with core := { rdyC with dom := { inst := 2, chanter := 1, role := false, strap := false, members := 7 } } }, by decide +kernel⟩,
   ⟨{ rdy with core := { rdyC with tick := 65536, dom := { inst := 2, chanter := 1, role := false, strap := false, members := 7 } } },
    by decide +kernel⟩,
   ⟨{ rdy with
      core := { rdyC with
                dom := { inst := 2
                         chanter := 1
                         role := false
                         strap := false
                         members := 7
                         mgtIn := [mgtM 12 1 [15, 0, 0, 0, 0, 0, 0, 0]] } } }, mgtM 12 1 [15, 0, 0, 0, 0, 0, 0, 0],
    { rdyC with dom := { inst := 2, chanter := 1, role := false, strap := false, members := 7 } }, by decide +kernel⟩,
   ⟨{ rdy with
      core := { rdyC with
                dom := { inst := 2
                         chanter := 1
                         role := false
                         strap := false
                         members := 7
                         mgtIn := [mgtM 12 1 [15, 0, 0, 0, 1, 0, 0, 0]] } } }, mgtM 12 1 [15, 0, 0, 0, 1, 0, 0, 0],
    { rdyC with dom := { inst := 2, chanter := 1, role := false, strap := false, members := 7 } }, 15,
    fun i h => (by decide +kernel : ∀ i, i < 16 → (7#16).getLsbD i = true → (15#16).getLsbD i = true) i (BitVec.lt_of_getLsbD h) h,
    by decide +kernel, by decide +kernel⟩⟩

theorem witness_ChanterDuties :
    (∃ (s : State), (On s ∧ hpRuns s = true ∧ s.core.dom.role = false ∧ s.core.dom.lastBeat + 65536 + s.core.dom.inst * 4096 ≤ now
      s.core ∧ s.core.dom.arrived = [] ∧ s.core.dom.barrier = none) ∧ cmdAt s 0x32 1 = none ∧ others s.core = []) ∧
    (∃ (s : State) (i : Fin 16) (t0 : Nat), (On s ∧ hpRuns s = true ∧ s.core.dom.role = true ∧ mfind? s.core.dom.noRouteAt i = some
      t0 ∧ t0 + deadWait s.core ≤ now s.core + 1 ∧ i.val ≠ s.core.dom.inst) ∧ isMember s.core i = true ∧ s.core.arr = {} ∧ s.core.gw
      = [] ∧ s.core.dom.arrived = [] ∧ cmdAt s 0x32 1 = none) ∧
    (∃ (s : State) (i : Fin 16), (∃ j, j < 16 ∧ isMember s.core j = true ∧ j ≠ i.val ∧ s.core.dom.reports.contains j = false) ∧ (On
      s ∧ hpRuns s = true ∧ s.core.dom.role = true ∧ s.core.dom.leaving ≠ 0 ∧ isMember s.core i = true ∧ i.val ≠ s.core.dom.inst) ∧
      Calm s.core ∧ s.core.dom.reports.contains i.val = false ∧ s.core.dom.arrived = [] ∧ cmdAt s 0x32 1 = none) ∧
    (∃ (s : State) (m : SpanMsg) (c : Core), On s ∧ hpRuns s = true ∧ takeMgt s.core 0xA = some (m, c) ∧ c.dom.role = true ∧ mgtNum
      m 8 4 = 0) ∧
    (∃ (s : State) (m : SpanMsg) (c : Core), (On s ∧ hpRuns s = true ∧ takeMgt s.core 0xB = some (m, c) ∧ s.sag.lpRun = true ∧
      s.pwr.vddsUp = true ∧ mgtNum m 8 1 ≠ 0) ∧ c.dom.role = true ∧ mgtNum m 12 4 = s.sag.cycle) ∧
    (∃ (s : State), On s ∧ hpRuns s = true ∧ s.core.dom.role = false) ∧
    (∃ (s : State), On s ∧ hpRuns s = true ∧ s.core.dom.role = true ∧ s.sag.lpRun = true ∧ s.pwr.vddsUp = true ∧ (s.sag.cycleRole =
      false ∨ s.sag.cycleAt + 2 ^ 32 ≤ now s.core)) :=
  ⟨⟨{ rdy with
      core := { rdyC with tick := BitVec.ofNat 64 (65536 + 15 * 4096), dom := { inst := 15, chanter := 1, role := false, members := 0 } } },
    by decide +kernel, by decide +kernel⟩,
   ⟨{ rdy with core := { rdyC with tick := 0x1000000, dom := { members := 3, noRouteAt := [(1, 1)] } } }, 1, 1, by decide +kernel,
    by decide +kernel⟩,
   ⟨{ rdy with core := { rdyC with dom := { members := 7, leaving := 4 } } }, 1, ⟨2, by decide +kernel⟩, by decide +kernel,
    by decide +kernel⟩,
   ⟨{ rdy with core := { rdyC with dom := { members := 7, mgtIn := [mgtM 10 1 [0, 0, 0, 0, 1, 0, 0, 0, 0, 0, 0, 0]] } } },
    mgtM 10 1 [0, 0, 0, 0, 1, 0, 0, 0, 0, 0, 0, 0], { rdyC with dom := { members := 7 } }, by decide +kernel⟩,
   ⟨{ rdy with
      sag := { lpRun := true, cycle := 4 }
      core := { rdyC with
                dom := { members := 7
                         mgtIn := [{ src := 1
                                     dst := 0
                                     gw := 0
                                     eseq := 0
                                     msg := .mgtPkt
                                     flits := mgtFlits ([11, 1, 0, 0, 0, 0, 0, 0] ++ leBytes 1 4 ++ leBytes 4 4 ++ List.replicate 1552 3) }] } } },
    { src := 1
      dst := 0
      gw := 0
      eseq := 0
      msg := .mgtPkt
      flits := mgtFlits ([11, 1, 0, 0, 0, 0, 0, 0] ++ leBytes 1 4 ++ leBytes 4 4 ++ List.replicate 1552 3) },
    { rdyC with dom := { members := 7 } }, by decide +kernel, by decide +kernel⟩,
   ⟨{ rdy with core := { rdyC with dom := { inst := 2, chanter := 1, role := false, strap := false, members := 7 } } }, by decide +kernel⟩,
   ⟨{ rdy with sag := { lpRun := true } }, by decide +kernel⟩⟩

theorem witness_FailedParts :
    (∃ (s : State) (ph : Fin 33) (cause : Fin 5) (c1 : Core), (On s ∧ s.core.out.contains ph.val = false ∧ cause.val ≠ 4 ∧
      s.bisq.spare = some ph.val ∧ s.bisq.migr = none ∧ s.bisq.repl = none) ∧ c1 = alarmEvent (ctrSat s.core 0x4200A 8 1) 13 0x402
      [wd ph, wd cause]) ∧
    (∃ (s : State) (ph : Fin 33) (cause : Fin 5) (sl : Nat), s.core.st.cur = .ready ∧ s.core.out.contains ph.val = false ∧ cause.val
      ≠ 4 ∧ s.bisq.spare = none ∧ (List.range 32).filter (fun u => physOf s.core u == ph.val) = [sl] ∧ Idle s) ∧
    (∃ (s : State) (ph : Fin 33), On s ∧ s.core.out.contains ph.val = true) ∧
    (∃ (s : State) (sl : Fin 32) (k : Nat) (t0 : Trk) (ph : Fin 33), (On s ∧ k < 256 ∧ trkGet s.core sl k = some t0 ∧ (t0.mirrors ≠
      0 ∨ t0.fcopies ≠ 0) ∧ t0.sentAt + 256 ≤ now s.core ∧ oneCopy s.core sl = false) ∧ physOf s.core (partnerOf sl) = ph.val) ∧
    (∃ (s : State) (l : Fin 112), On s ∧ s.core.fabric.links.contains l.val = true) ∧
    (∃ (s : State) (l : Fin 112), On s ∧ s.core.fabric.links.contains l.val = false ∧ (linksOf (linkEnds l).1).all (fun k =>
      (s.core.fabric.links ++ [l.val]).contains k) = false ∧ (linksOf (linkEnds l).2).all (fun k => (s.core.fabric.links ++
      [l.val]).contains k) = false ∧ NoFlip s.core) ∧
    (∃ (s : State), On s ∧ s.core.fabric.quiesce = true ∧ s.core.fabric.taken = [] ∧ Calm s.core) ∧
    (∃ (s : State) (l : Fin 112), (On s ∧ s.core.fabric.quiesce = true ∧ s.core.fabric.since + 64 ≤ now s.core ∧ NoFlip s.core ∧
      s.core.fabric.links.contains l.val = false ∧ (linksOf (linkEnds l).1).all (fun k => (s.core.fabric.links ++ [l.val]).contains
      k) = false) ∧ (linksOf (linkEnds l).2).all (fun k => (s.core.fabric.links ++ [l.val]).contains k) = false) ∧
    (∃ (s : State) (l : Fin 112) (dir : Bool), bisqueRuns s.core = true ∧ (regv s.core 0x42000).getLsbD 1 = true ∧
      s.core.fabric.links.contains l.val = false ∧ mget s.core.fabric.testAt (2 * l.val + b2n dir) 0 ≤ now s.core) ∧
    (∃ (s : State) (l : Fin 112) (dir : Bool), bisqueRuns s.core = true ∧ (regv s.core 0x42000).getLsbD 1 = true ∧
      s.core.fabric.links.contains l.val = false ∧ mget s.core.fabric.testAt (2 * l.val + b2n dir) 0 ≤ now s.core ∧ dir = false) ∧
    (∃ (s : State) (l : Fin 112) (dir : Bool), bisqueRuns s.core = true ∧ (regv s.core 0x42000).getLsbD 1 = true ∧
      s.core.fabric.links.contains l.val = false ∧ mget s.core.fabric.testAt (2 * l.val + b2n dir) 0 ≤ now s.core ∧ mget
      s.core.fabric.testFails (2 * l.val + b2n dir) 0 < 3) ∧
    (∃ (s : State) (l : Fin 112) (dir : Bool), bisqueRuns s.core = true ∧ (regv s.core 0x42000).getLsbD 1 = true ∧
      s.core.fabric.links.contains l.val = false ∧ mget s.core.fabric.testAt (2 * l.val + b2n dir) 0 ≤ now s.core ∧ mget
      s.core.fabric.testFails (2 * l.val + b2n dir) 0 < 3 ∧ dir = false) :=
  ⟨⟨rdy, 32, 0, alarmEvent (ctrSat rdy.core 0x4200A 8 1) 13 0x402 [wd 32, wd 0], by decide +kernel, by decide +kernel⟩,
   ⟨{ core := { st := { cur := .ready } }, bisq := { spare := none } }, 31, 3, 31, by decide +kernel⟩,
   ⟨{ rdy with core := { rdyC with out := [32] } }, 32, by decide +kernel⟩,
   ⟨{ rdy with core := { rdyC with tick := 256, arr := { trk := [{ trk0 with st := .mirror, data := some 9, mirrors := 1 }] } } }, 0, 0,
    { trk0 with st := .mirror, data := some 9, mirrors := 1 }, 1, by decide +kernel, by decide +kernel⟩,
   ⟨{ rdy with core := { rdyC with fabric := { links := [111] } } }, 111, by decide +kernel⟩,
   ⟨rdy, 111, by decide +kernel⟩,
   ⟨{ rdy with core := { rdyC with fabric := { quiesce := true, links := [] } } }, by decide +kernel⟩,
   ⟨{ rdy with core := { rdyC with tick := 64, fabric := { quiesce := true } } }, 111, by decide +kernel, by decide +kernel⟩,
   ⟨{ rdy with core := { rdyC with fabric := { testFails := [(222, 2), (223, 1)] } } }, 111, true, by decide +kernel⟩,
   ⟨{ rdy with core := { rdyC with fabric := { testFails := [(222, 2), (223, 1)] } } }, 111, false, by decide +kernel⟩,
   ⟨{ rdy with core := { rdyC with fabric := { testFails := [(222, 2), (223, 1)] } } }, 111, true, by decide +kernel⟩,
   ⟨{ rdy with core := { rdyC with fabric := { testFails := [(222, 2), (223, 1)] } } }, 111, false, by decide +kernel⟩⟩

theorem witness_Migration :
    (∃ (s : State) (q : Nat), (s.core.st.cur = .ready ∧ s.core.ending = false ∧ (regv s.core 0x42000).getLsbD 2 = true ∧
      s.bisq.rotAt + rotPeriod s.core ≤ now s.core ∧ spareReady s.bisq = some q ∧ s.bisq.migr = none) ∧ movable s.core.bearer q ≠
      []) ∧
    (∃ (s : State) (sl : Nat) (pa : Nat) (pb : Nat), bisqueRuns s.core = true ∧ s.bisq.migr = some (sl, pa, pb) ∧ s.bisq.window =
      false) ∧
    (∃ (s : State) (sl : Nat) (pa : Nat) (pb : Nat), (s.bisq.migr = some (sl, pa, pb) ∧ s.bisq.window = true ∧ s.core.fabric.quiesce
      = false ∧ bisqueRuns s.core = true ∧ s.core.arr = {} ∧ sl < 32) ∧ isLeaving s.core s.core.dom.inst = false) ∧
    (∃ (s : State) (ph : Fin 33) (sl : Nat), (s.core.st.cur = .ready ∧ s.bisq.migr = none ∧ s.bisq.repl = some ph.val ∧
      s.core.out.contains ph.val = false ∧ s.bisq.spare = none ∧ (List.range 32).filter (fun u => physOf s.core u == ph.val) = [sl])
      ∧ (s.core.arr = {} ∧ s.core.fab = {} ∧ s.core.cport = [] ∧ s.core.reads = [] ∧ s.core.bundles = [] ∧ isLeaving s.core
      s.core.dom.inst = false) ∧ NoFlip s.core) ∧
    (∃ (s : State) (q : Nat), On s ∧ s.bisq.testing = true ∧ s.bisq.spare = some q ∧ servedByPartner s.core = none) ∧
    (∃ (s : State) (q : Nat), On s ∧ s.bisq.testing = true ∧ s.bisq.spare = some q) :=
  ⟨⟨{ rdy with core := { rdyC with tick := 0x400000000000000 } }, 32, by decide +kernel, by decide +kernel⟩,
   ⟨{ rdy with
      core := { rdyC with arr := { mon := [(0, { granule := 0, expiry := 9 }), (12, { granule := 0, expiry := 9 })], trk := [trk0] } }
      bisq := { migr := some (0, 0, 32) } }, 0, 0, 32, by decide +kernel⟩,
   ⟨{ rdy with bisq := { migr := some (31, 31, 32), window := true, rebuild := false } }, 31, 31, 32, by decide +kernel, by decide +kernel⟩,
   ⟨{ core := { st := { cur := .ready } }, bisq := { repl := some 31, spare := none } }, 31, 31, by decide +kernel, by decide +kernel,
    by decide +kernel⟩,
   ⟨{ rdy with bisq := { testing := true } }, 32, by decide +kernel⟩,
   ⟨{ rdy with bisq := { testing := true, walk := [3] } }, 32, by decide +kernel⟩⟩

theorem witness_BackgroundDuties :
    (∃ (s : State), (bisqueRuns s.core = true ∧ s.core.urgent = [] ∧ (regv s.core 0x41000).getLsbD 0 = true ∧ s.core.arr = {} ∧
      isLeaving s.core s.core.dom.inst = false ∧ now s.core ≤ s.fet.passAt + passPeriod s.core) ∧ s.fet.cat = 0 ∧ s.fet.unit < 33 ∧
      s.fet.index < 2048) ∧
    (∃ (s : State), (bisqueRuns s.core = true ∧ s.core.urgent = [] ∧ (regv s.core 0x41000).getLsbD 0 = true ∧ s.core.arr = {} ∧
      isLeaving s.core s.core.dom.inst = false ∧ now s.core ≤ s.fet.passAt + passPeriod s.core) ∧ s.fet.cat = 9 ∧ s.fet.unit = 0 ∧
      s.fet.index = 3) ∧
    (∃ (s : State), (bisqueRuns s.core = true ∧ (regv s.core 0x42000).getLsbD 0 = true ∧ s.bisq.borrowed = [] ∧ s.bisq.borrowAt + 2
      ^ 16 ≤ now s.core ∧ inService s s.bisq.phys = true ∧ s.core.arr.lc = []) ∧ s.core.reads = [] ∧ s.bisq.bank < 8) ∧
    (∃ (s : State), On s ∧ Calm s.core ∧ (∀ k ∈ s.bisq.borrowed, (lcRd s.core k.1 k.2.1 k.2.2).use = .borrowed)) ∧
    (∃ (s : State), On s ∧ s.core.leakAt + leakPeriod s.core ≤ now s.core) ∧
    (∃ (s : State), policyRuns s.core = true ∧ s.ctl.down.contains 0 = false ∧ s.core.evalAt + 2 ^ 16 ≤ now s.core ∧ s.core.arr.lc =
      [] ∧ Calm s.core) ∧
    (∃ (s : State), On s ∧ anyBelow s.core.volt 65 64 = false) ∧
    (∃ (s : State), On s ∧ s.core.st.cur ≠ .flush ∧ s.core.lcBusy = false ∧ s.core.dom.funnelQ = [] ∧ s.core.dom.purging = []) :=
  ⟨⟨{ core := { st := { cur := .ready } }, fet := { index := 2047, unit := 32 } }, by decide +kernel, by decide +kernel⟩,
   ⟨{ core := { st := { cur := .ready } }, fet := { cat := 9, index := 3 } }, by decide +kernel, by decide +kernel⟩,
   ⟨{ core := { rdyC with tick := 65536 }, bisq := { way := 0, bank := 7 } }, by decide +kernel, by decide +kernel⟩,
   ⟨{ rdy with core := { rdyC with arr := { lc := [(7, { use := .borrowed })] } }, bisq := { borrowed := [(0, 0, 7)] } },
    by decide +kernel⟩,
   ⟨{ rdy with core := { rdyC with tick := 0x400000000000000, bkt := [(3, 5), (4, 0)] } }, by decide +kernel⟩,
   ⟨{ rdy with core := { rdyC with tick := 65536 } }, by decide +kernel⟩,
   ⟨rdy, by decide +kernel⟩,
   ⟨{ rdy with snap := { pending := true }, core := { rdyC with tick := 0xFFFFFFFF } }, by decide +kernel⟩⟩

theorem witness_SaggarKeepsAccount :
    (∃ (s : State) (m : MeterMsg) (rest : List MeterMsg), s.pwr.vddsUp = true ∧ s.core.fab.meters = m :: rest) ∧
    (∃ (s : State) (m : MeterMsg) (rest : List MeterMsg), s.pwr.vddsUp = true ∧ s.core.fab.meters = m :: rest) ∧
    (∃ (s : State), s.pwr.vddsUp = true ∧ s.sag.lpRun = true ∧ s.pwr.vddsWarn = false) ∧
    (∃ (s : State), On s ∧ s.pwr.vddsUp = true ∧ (s.pwr.seconds + 1) * 100000000 ≤ now s.core) ∧
    (∃ (s : State) (back : Bool), s.pwr.vddsUp = true ∧ back = s.sag.lfsr.getLsbD 0) ∧
    (∃ (s : State) (back : Bool), s.pwr.vddsUp = true ∧ back ≠ s.sag.lfsr.getLsbD 0 ∧ s.sag.bad = 0) ∧
    (∃ (s : State) (back : Bool), s.pwr.vddsUp = true ∧ back ≠ s.sag.lfsr.getLsbD 0 ∧ 1 ≤ s.sag.bad ∧ (s.sag.sealed = true ∨
      s.sag.signKey.isSome = true)) ∧
    (∃ (s : State), s.pwr.vddsUp = true ∧ s.pwr.service = false) ∧
    (∃ (s : State), s.pwr.vddsUp = true ∧ s.sag.erasing = true) ∧
    (∃ (s : State), s.pwr.vddsUp = true) ∧
    (∃ (s : State), s.pwr.vddsUp = false) ∧
    (∃ (s : State), s.pwr.resetN = true ∧ s.core.st.cur = .init ∧ s.pwr.warm = true) :=
  ⟨⟨{ rdy with core := { rdyC with fab := { meters := [{ meter := 15, q := 4, amount := 70 }] } } }, { meter := 15, q := 4, amount := 70 },
    [], by decide +kernel⟩,
   ⟨{ rdy with core := { rdyC with fab := { meters := [{ meter := 15, q := 4, amount := 70 }] } } }, { meter := 15, q := 4, amount := 70 },
    [], by decide +kernel⟩,
   ⟨{ rdy with sag := { lpRun := true, meters := [(83, { acc := 60 })] } }, by decide +kernel⟩,
   ⟨{ rdy with core := { rdyC with tick := 100000000 } }, by decide +kernel⟩,
   ⟨rdy, true, by decide +kernel⟩,
   ⟨rdy, false, by decide +kernel⟩,
   ⟨{ rdy with sag := { bad := 1, sealed := true, signKey := some 3 } }, false, by decide +kernel⟩,
   ⟨{ rdy with sag := { keyRecs := [(15, .bypass)], debugOpen := 7 } }, by decide +kernel⟩,
   ⟨{ rdy with sag := { erasing := true }, pwr := { service := true } }, by decide +kernel⟩,
   ⟨rdy, by decide +kernel⟩,
   ⟨{ rdy with pwr := { vddsUp := false } }, by decide +kernel⟩,
   ⟨{ rdy with core := { rdyC with st := { cur := .init } }, pwr := { resetN := true, warm := true } }, by decide +kernel⟩⟩


/-- An image of 256 bytes for TP. -/
def imgTp : List Byte := leBytes 0x5746444E 4 ++ [1, 0, 2, 0] ++ List.replicate 248 0

/-- Clause 3.1 of WareAndFirmware: where the Config verifies some image of 256 bytes for TP, FW_UPDATE of it takes this path. -/
theorem witness_WareAndFirmware_image (h : Config.imageOk 2 imgTp = true) :
    ∃ (s : State) (x : Cmd) (b : Nat) (p : BitVec 64) (c : Core) (l : List Byte), Taken s 0x40 0 x b p ∧ bnum x.params 0 4 < 3 ∧
      wareBytes ((bnum x.params 12 4 + 63) / 64) s.core (addrLine s.core (bnum x.params 4 8)) [] = (some l, c) ∧ NoFlip c ∧
      c.tick = s.core.tick ∧ imageGood (bnum x.params 0 4) (l.take (bnum x.params 12 4)) = true := by
  let c := { wareC (hReq .load) with arr := { wcap := 1, ware := [
    (0, { data := 0x0002000157_46444E, known := beAll }), (1, { known := beAll }), (2, { known := beAll }), (3, { known := beAll })] } }
  let x := cmd0 0x40 0 (leBytes 2 4 ++ leBytes 0 8 ++ leBytes 256 4)
  refine ⟨runS c x, x, 7, 0x40, c, imgTp, by decide +kernel, by decide +kernel, by decide +kernel, (by decide +kernel : NoFlip c), rfl, ?_⟩
  have e : imgTp.take (bnum x.params 12 4) = imgTp := by decide +kernel
  have t : bnum x.params 0 4 = 2 := by decide +kernel
  rw [e, t, imageGood, h]
  decide +kernel

/-- Clause 1.2 of KeysAndSecrets: where the Config's key wrap refuses the parameters. -/
theorem witness_KeysAndSecrets_refused (h : Config.unwrapKey 15 [15, 0, 0, 0] = none) :
    ∃ (s : State) (x : Cmd) (b : Nat) (p : BitVec 64) (k : Nat), Taken s 0x41 0 x b p ∧ lpGone s = false ∧ s.pwr.vddsWarn = false ∧
      bnum x.params 0 1 = k ∧ Calm s.core ∧ s.core.reads = [] ∧ s.core.bundles = [] ∧ s.core.keyNext = [] ∧ s.core.arr.lc = [] ∧
      s.core.arr.hold = [] ∧ bnum x.params 1 1 = 0 ∧ Config.unwrapKey k x.params = none :=
  ⟨runS rdyC (cmd0 0x41 0 [15, 0, 0, 0]), cmd0 0x41 0 [15, 0, 0, 0], 7, 0x40, 15, by decide +kernel, rfl, rfl, rfl, by decide +kernel,
   rfl, rfl, rfl, rfl, rfl, rfl, h⟩

/-- Clauses 2.1 and 2.2 of KeysAndSecrets: a DEBUG_UNLOCK whose token the Config verifies or refuses. -/
theorem witness_KeysAndSecrets_token (v : Bool) (h : Config.debugTokenOk 0 7 [] = v) :
    ∃ (s : State) (x : Cmd) (b : Nat) (p : BitVec 64) (scope : BitVec 3), Taken s 0x42 0 x b p ∧ lpGone s = false ∧
      BitVec.ofNat 3 (bnum x.params 0 4) = scope ∧ Config.debugTokenOk s.sag.nonce scope (x.params.drop 4) = v :=
  ⟨runS rdyC (cmd0 0x42 0 [7, 0, 0, 0]), cmd0 0x42 0 [7, 0, 0, 0], 7, 0x40, 7, by decide +kernel, rfl, rfl, h⟩

/-- Clause 5.2 of KeysAndSecrets: a SAG_RESEAL whose parameters the Config verifies. -/
theorem witness_KeysAndSecrets_reseal (h : Config.resealOk 0 0 [] = true) :
    ∃ (s : State) (x : Cmd) (b : Nat) (p : BitVec 64), Taken s 0x45 0 x b p ∧ lpGone s = false ∧ s.pwr.vddsWarn = false ∧
      s.sag.loopOpen = false ∧ Config.resealOk s.sag.reseals s.sag.lpVer x.params = true :=
  ⟨runS rdyC (cmd0 0x45 0 []), cmd0 0x45 0 [], 7, 0x40, by decide +kernel, rfl, rfl, rfl, h⟩

/-- Clause 2 of DebugStaysLocked: a token that the Config verifies opens its scope. -/
theorem witness_DebugStaysLocked_token (h : Config.debugTokenOk 0 7 [] = true) :
    ∃ s t : State, exec .debugUnlock s = .next t ∧ t.sag.debugOpen ≠ s.sag.debugOpen := by
  refine ⟨runS rdyC (cmd0 0x42 0 [7, 0, 0, 0]), _, rfl, ?_⟩
  unfold debugUnlock
  rw [if_neg (by decide +kernel)]
  split
  · decide +kernel
  · exact absurd h ‹_›

/-- Clause 5.1 of ChanterDuties: another instance's request for a readout. -/
theorem witness_ChanterDuties_readout : ∃ (s : State) (m : SpanMsg) (c : Core) (r : List Byte × State), On s ∧ hpRuns s = true ∧
    takeMgt s.core 0xB = some (m, c) ∧ s.sag.lpRun = true ∧ s.pwr.vddsUp = true ∧ mgtNum m 8 1 = 0 ∧ m.src = c.dom.chanter ∧
    r = readout { s with core := c } (BitVec.ofNat 256 (mgtNum m 16 32)) true :=
  ⟨{ rdy with
      sag := { lpRun := true }
      core := { rdyC with dom := { inst := 2, chanter := 1, role := false, strap := false, members := 7, mgtIn := [mgtM 11 1 []] } } },
    mgtM 11 1 [], { rdyC with dom := { inst := 2, chanter := 1, role := false, strap := false, members := 7 } }, _,
    by decide +kernel, by decide +kernel, ⟨by decide +kernel, rfl, rfl, by decide +kernel, rfl, rfl⟩⟩

/-- Clause 6.1 of BackgroundDuties: a Cone that reports a SPEED of 0 is below any SPEED_MIN but 0. -/
theorem witness_BackgroundDuties_voltage (h : 0 < Config.speedMin 0) :
    ∃ s : State, On s ∧ anyBelow s.core.volt 65 64 = true ∧ s.core.volt.floorAt = 0 := by
  refine ⟨{ rdy with core := { rdyC with volt := { speed := [(0, 0)] } } }, by decide, ?_, rfl⟩
  exact List.any_eq_true.mpr ⟨0, by decide, decide_eq_true (by simpa using h : 0 * 64 < Config.speedMin 0 * 65)⟩

end Sys2Proof.Tests
end

section
/-! SUPPORT. Faults and restarts of processors (R18, R372, R387, R453): a flag that is set stays set while notifications leave, a fault
releases locks and ends reservations, an image runs again, presence ends. -/

namespace Sys2Proof.Machine

/-! ### Hardware never clears a sticky flag -/

/-- Storing an entry whose bit is 1 leaves every flag that reads 1. -/
theorem flagGet_mput_mono {m : Map Sticky} {off b : Nat} (k : Nat) {s : Sticky} (hs : s.bit = true) (h : flagGet m off b = true) :
    flagGet (mput m k s) off b = true := by
  unfold flagGet at *
  by_cases e : flagKey off b = k
  · rw [e, mget_mput_self, hs]
  · rw [mget_mput_ne _ _ _ e, h]

/-- Setting a flag leaves every flag that reads 1 (R350). -/
theorem flagGet_flagSet_mono {m : Map Sticky} {off b : Nat} (t o x : Nat) (h : flagGet m off b = true) :
    flagGet (flagSet m t o x) off b = true := by
  have h1 := flagGet_mput_mono (flagKey o x) (s := { mget m (flagKey o x) {} with bit := true, setAt := t + 1 }) rfl h
  unfold flagSet
  dsimp only
  split
  · split
    · exact flagGet_mput_mono _ rfl h1
    · exact h1
  · exact h1

variable {c : Core} {off b : Nat}

theorem flagv_hwSet_self (c : Core) (off b : Nat) : flagv (hwSet c off b) off b = true := flagGet_flagSet_self c.flags (now c) off b

theorem flagv_hwSet_mono (o x : Nat) (h : flagv c off b = true) : flagv (hwSet c o x) off b = true := flagGet_flagSet_mono (now c) o x h

theorem flagv_ringRouted_mono (x : Nat) (h : flagv c off b = true) : flagv (ringRouted c x) off b = true := flagv_hwSet_mono _ x h

theorem flagv_flipFire_mono (h : flagv c off b = true) : flagv (flipFire c) off b = true := flagv_hwSet_mono (c := regSet c _ _) _ _ h

theorem flagv_bucketAdd_mono (cat : Nat) (h : flagv c off b = true) : flagv (bucketAdd c cat) off b = true := by
  unfold bucketAdd
  extract_lets
  split
  · exact flagv_ringRouted_mono _ (flagv_hwSet_mono (c := { c with bkt := _ }) _ _ h)
  · exact h

theorem flagv_countError_mono (e : ErrAt) (h : flagv c off b = true) : flagv (countError c e) off b = true := by
  refine flagv_bucketAdd_mono e.cat ?_
  rw [logError_frame]
  exact h

theorem flagv_flueRing_mono (before : Core) (h : flagv c off b = true) : flagv (flueRing before c) off b = true := by
  simp only [flueRing]
  split
  · exact flagv_ringRouted_mono _ h
  · exact h

theorem flagv_flueAccept_mono (code : Nat) (par : List Word) (al : Bool) (h : flagv c off b = true) :
    flagv (flueAccept c code par al) off b = true := by
  have hring (q : Flue) : flagv (flueRing c { c with flue := q }) off b = true := flagv_flueRing_mono (c := { c with flue := q }) c h
  simp only [flueAccept]
  split <;> exact hring _

/-- An event clears no flag, not even where a flip strikes its record (R428). -/
theorem flagv_event_mono (code : Nat) (par : List Word) (al : Bool) (h : flagv c off b = true) :
    flagv (event c code par al) off b = true := by
  simp only [event]
  split
  · exact flagv_flueAccept_mono _ _ _ (flagv_countError_mono (c := { flipFire c with flue := _ }) _ (flagv_flipFire_mono h))
  · exact flagv_flueAccept_mono _ _ _ h

/-- A latched alarm shows in the alarm register (R435). -/
theorem flagv_alarm_self (c : Core) (x : Nat) : flagv (alarm c x) 0x20100 x = true := flagv_ringRouted_mono _ (flagv_hwSet_self _ _ _)

theorem flagv_alarmEvent_self (c : Core) (x code : Nat) (par : List Word) : flagv (alarmEvent c x code par) 0x20100 x = true :=
  flagv_event_mono code par true (flagv_alarm_self c x)

/-! ### Notifications leave the arrays and the block's state -/

@[simp] theorem event_arr (c : Core) (code : Nat) (par : List Word) (al : Bool) : (event c code par al).arr = c.arr := by
  rw [event_frame]

@[simp] theorem event_st (c : Core) (code : Nat) (par : List Word) (al : Bool) : (event c code par al).st = c.st := by
  rw [event_frame]

@[simp] theorem alarm_arr (c : Core) (x : Nat) : (alarm c x).arr = c.arr := by rw [alarm_frame]

@[simp] theorem countError_arr (c : Core) (e : ErrAt) : (countError c e).arr = c.arr := by rw [countError_frame]

@[simp] theorem urgentSet_arr (c : Core) (e : ErrAt) : (urgentSet c e).arr = c.arr := by
  unfold urgentSet
  extract_lets
  split <;> rfl

@[simp] theorem arrayError_arr (c : Core) (e : ErrAt) : (arrayError c e).arr = c.arr := by
  simp only [arrayError, event_arr, countError_arr, urgentSet_arr]

@[simp] theorem alarmEvent_arr (c : Core) (x code : Nat) (par : List Word) : (alarmEvent c x code par).arr = c.arr := by
  simp only [alarmEvent, event_arr, alarm_arr]

/-- A change of state shows the state left as PREV (R384). -/
@[simp] theorem setState_st (c : Core) (x : BState) : (setState c x).st = { cur := x, prev := c.st.cur } := by
  simp only [setState, event_st, ringRouted_st, hwSet_st]

@[simp] theorem setState_arr (c : Core) (x : BState) : (setState c x).arr = c.arr := by
  simp only [setState, event_arr, ringRouted_arr, hwSet_arr]

/-! ### The locks of an owner that stops (R372) -/

/-- A lock once its owner o has stopped: one that o held is free and BROKEN, with o in DEAD. -/
def Lock.freedFrom (o : Nat) (l : Lock) : Lock := if l.owner = o then { l with owner := 0, broken := true, dead := o } else l

theorem Lock.freedFrom_owner_ne {o : Nat} (l : Lock) (ho : o ≠ 0) : (l.freedFrom o).owner ≠ o := by
  unfold Lock.freedFrom
  split
  · exact ho.symm
  · assumption

/-- Entries that change by their values alone are found under the same keys. -/
theorem mfind?_map {α β : Type} (m : Map α) (f : α → β) (k : Nat) : mfind? (m.map fun x => (x.1, f x.2)) k = (mfind? m k).map f := by
  induction m with
  | nil => rfl
  | cons p t ih =>
    simp only [List.map_cons, mfind?, ih]
    split <;> rfl

theorem mfind?_dropLocks (s : State) (o k : Nat) : mfind? (dropLocks s o).ctl.lig k = (mfind? s.ctl.lig k).map (Lock.freedFrom o) := by
  rw [← mfind?_map]
  refine congrArg (mfind? · k) (List.map_congr_left fun x _ => ?_)
  simp only [Lock.freedFrom]
  split <;> rfl

theorem dropLocks_owner_ne (s : State) {o : Nat} (ho : o ≠ 0) (k : Nat) : (mget (dropLocks s o).ctl.lig k {}).owner ≠ o := by
  rw [mget, mfind?_dropLocks]
  cases mfind? s.ctl.lig k with
  | none => exact ho.symm
  | some l => exact l.freedFrom_owner_ne ho

theorem mfind?_dropLocks_held {s : State} {o k : Nat} {l : Lock} (h : mfind? s.ctl.lig k = some l) (ho : l.owner = o) :
    mfind? (dropLocks s o).ctl.lig k = some { l with owner := 0, broken := true, dead := o } := by
  rw [mfind?_dropLocks, h, Option.map_some, Lock.freedFrom, if_pos ho]

/-! ### The reservations of a requester that stops (R223) -/

theorem mdel_eq_filter {α : Type} (m : Map α) (k : Nat) : mdel m k = m.filter (fun x => x.1 != k) := by
  induction m with
  | nil => rfl
  | cons p t ih =>
    by_cases h : p.1 = k
    · rw [mdel, if_pos h, List.filter_cons, if_neg (fun hk => bne_iff_ne.mp hk h), ih]
    · rw [mdel, if_neg h, List.filter_cons, if_pos (bne_iff_ne.mpr h), ih]

theorem mfind?_eq_none {α : Type} {m : Map α} {k : Nat} (h : ∀ x ∈ m, x.1 ≠ k) : mfind? m k = none := by
  induction m with
  | nil => rfl
  | cons p t ih =>
    obtain ⟨hp, ht⟩ := List.forall_mem_cons.mp h
    rw [mfind?, if_neg hp, ih ht]

/-- Dropping a requester's reservations in some slices keeps exactly the monitor entries under other keys. -/
theorem foldl_monDrop (c : Core) (rid : Nat) (ls : List Nat) :
    ls.foldl (fun c l => monDrop c l rid) c =
      { c with arr := { c.arr with mon := c.arr.mon.filter (fun x => ls.all (fun l => x.1 != monKey l rid)) } } := by
  induction ls generalizing c with
  | nil =>
    have hmon : c.arr.mon.filter (fun x => ([] : List Nat).all (fun l => x.1 != monKey l rid)) = c.arr.mon :=
      List.filter_eq_self.mpr fun _ _ => rfl
    rw [List.foldl_nil, hmon]
  | cons l t ih =>
    rw [List.foldl_cons, ih]
    simp only [monDrop, mdel_eq_filter, List.filter_filter, List.all_cons, Bool.and_comm]

/-- None of a requester's reservations is left in the slices where they were dropped. -/
theorem mfind?_foldl_monDrop (c : Core) (rid : Nat) {ls : List Nat} {l : Nat} (hl : l ∈ ls) :
    mfind? (ls.foldl (fun c l => monDrop c l rid) c).arr.mon (monKey l rid) = none := by
  rw [foldl_monDrop]
  refine mfind?_eq_none fun x hx => ?_
  exact bne_iff_ne.mp (List.all_eq_true.mp (List.mem_filter.mp hx).2 l hl)

/-- The reservations of other requesters stay. -/
theorem mem_foldl_monDrop {c : Core} {rid : Nat} {ls : List Nat} {x : Nat × Mon} (hx : x ∈ c.arr.mon)
    (hother : ∀ l ∈ ls, x.1 ≠ monKey l rid) : x ∈ (ls.foldl (fun c l => monDrop c l rid) c).arr.mon := by
  rw [foldl_monDrop]
  exact List.mem_filter.mpr ⟨hx, List.all_eq_true.mpr fun l hl => bne_iff_ne.mpr (hother l hl)⟩

/-! ### A processor faults (R18) -/

/-- What a fault makes of a processor that runs: its memory's parity error is told first where there is one, which leaves the arrays. -/
theorem procDown_of_runs {s : State} {p : Nat} (hup : s.ctl.up = true) (hrun : s.ctl.down.contains p = false) :
    ∃ c : Core, c.arr = s.core.arr ∧ procDown s p = { s with
      core := alarmEvent ((List.range 32).foldl (fun c l => monDrop c l (72 + p)) c) 0 0x801 [wd p]
      ctl := { s.ctl with
        down := s.ctl.down ++ [p], mem := mdel s.ctl.mem p, tries := mdel s.ctl.tries p, lig := (dropLocks s (10 + p)).ctl.lig } } := by
  unfold procDown
  rw [if_neg (by simp only [hup, hrun]; decide)]
  by_cases hbad : (mget s.ctl.mem p {}).bad = true
  · exact ⟨(memError s p).core, arrayError_arr _ _, by rw [if_pos hbad]; rfl⟩
  · exact ⟨s.core, rfl, by rw [if_neg hbad]; rfl⟩

/-! ### A processor runs again (R18, R472) -/

theorem getLsbD_setBit3_self (x : BitVec 3) (p : Fin 3) (v : Bool) : (setBit3 x p v).getLsbD p = v := by
  revert x p v
  decide

/-- Without an armed flip an image is read as it stands. -/
theorem memLoad_of_noFlip {s : State} (h : NoFlip s.core) (slot : Bool) : memLoad s slot = ({ image := some slot }, s) := by
  simp only [memLoad, flipArmed_false 9 h, Bool.false_eq_true, if_false]

/-- The control path once processor p runs again from the image in a slot. -/
def Ctl.restarted (t : Ctl) (p : Nat) (slot : Bool) (v : Word) : Ctl :=
  { t with
    down := t.down.filter (fun x => x != p), versions := modAt t.versions p (fun _ => v)
    mem := mput t.mem p { image := some slot }, tries := mdel t.tries p }

variable {s : State} {p : Nat}

/-- HP or TP runs again from the slot it ran from. -/
theorem procRuns_sameSlot (hp : p ≠ 0) (hf : NoFlip s.core) (v : Word) :
    procRuns s p false v = { s with ctl := s.ctl.restarted p (s.pwr.slot.getLsbD p) v } := by
  simp only [procRuns, memLoad_of_noFlip hf, hp, withCtl, Ctl.restarted, Bool.bne_false, Bool.not_false, if_true, if_false]

/-- HP or TP runs again from the other slot, with the alarm of authentication. -/
theorem procRuns_otherSlot (hp : p ≠ 0) (hf : NoFlip s.core) (v : Word) :
    procRuns s p true v = { s with
      core := alarm s.core 14
      pwr := { s.pwr with
        slot := setBit3 s.pwr.slot p (!s.pwr.slot.getLsbD p), fallback := setBit3 s.pwr.fallback p (!s.pwr.fallback.getLsbD p) }
      ctl := s.ctl.restarted p (!s.pwr.slot.getLsbD p) v } := by
  simp only [procRuns, memLoad_of_noFlip hf, hp, withCtl, Ctl.restarted, Bool.bne_true, Bool.not_true, Bool.false_eq_true, if_false]

/-- An image that authenticates before both slots have failed lets the processor run: from the other slot after one failure. -/
theorem procUp_ok (hd : s.ctl.down.contains p = true) (hn : mget s.ctl.tries p 0 < 2) (v : Word) :
    procUp s p true v = procRuns s p (mget s.ctl.tries p 0 == 1) v := by
  unfold procUp
  exact (if_neg (by rw [hd, decide_eq_false (Nat.not_le.mpr hn)]; decide)).trans (if_pos rfl)

/-- The first failure is counted, and nothing else happens. -/
theorem procUp_firstFails (hd : s.ctl.down.contains p = true) (hn : mget s.ctl.tries p 0 = 0) (v : Word) :
    procUp s p false v = { s with ctl := { s.ctl with tries := mput s.ctl.tries p 1 } } := by
  simp only [procUp, hd, hn]
  rfl

/-- The second failure is counted and raises the alarm of authentication. -/
theorem procUp_secondFails (hd : s.ctl.down.contains p = true) (hn : mget s.ctl.tries p 0 = 1) (v : Word) :
    procUp s p false v = { s with core := alarm s.core 14, ctl := { s.ctl with tries := mput s.ctl.tries p 2 } } := by
  simp only [procUp, hd, hn]
  rfl

/-- Where both slots have failed the processor stays stopped. -/
theorem procUp_bothFailed (hn : 2 ≤ mget s.ctl.tries p 0) (ok : Bool) (v : Word) : procUp s p ok v = s :=
  if_pos (by rw [decide_eq_true hn, Bool.or_true])

/-! ### LP faults (R453) -/

/-- LP runs again from its active image, with its locks released, and remembers it for the next readout. -/
theorem lpRestart_of_runs (hv : s.pwr.vddsUp = true) (hr : s.sag.lpRun = true) (hb : s.sag.lpMem.bad = false) (hf : NoFlip s.core) :
    lpRestart s = { s with
      ctl := { s.ctl with lig := (dropLocks s 13).ctl.lig }
      sag := { s.sag with lpRestarted := true, lpMem := { image := some s.sag.lpSlot } } } := by
  have hm : memLoad (dropLocks s 13) s.sag.lpSlot = ({ image := some s.sag.lpSlot }, dropLocks s 13) :=
    memLoad_of_noFlip (s := dropLocks s 13) hf _
  unfold lpRestart
  rw [if_neg (by rw [hv, hr]; decide)]
  simp only [hb, Bool.false_eq_true, if_false, hm]
  rfl

/-! ### Presence ends (R387) -/

/-- With no command under way the end of presence changes presence alone, and the state where that is SERVICE. -/
theorem presenceLost_of_noRun (h : s.ctl.run = []) :
    presenceLost s = { s with
      pwr := { s.pwr with service := false }, sag := { s.sag with present := false }
      core := if s.core.st.cur = .service then setState s.core .quiesced else s.core } := by
  simp only [presenceLost, withSag, h, List.filter_nil, List.foldl_nil]
  split <;> rfl

/-! ### The commands and the statement -/

theorem exec_procFault (hOn : On s) (p : Fin 3) : exec (.procFault p) s = .next (procDown s p) :=
  onState_on (f := fun s => procDown s p) hOn

theorem exec_procRestart (hOn : On s) (p : Fin 3) (ok : Bool) (v : Word) : exec (.procRestart p ok v) s = .next (procUp s p ok v) :=
  onState_on (f := fun s => procUp s p ok v) hOn

theorem exec_lpFault (hv : s.pwr.vddsUp = true) : exec .lpFault s = .next (lpRestart s) := if_pos hv

theorem exec_serviceNDeassert (s : State) : exec .serviceNDeassert s = .next (presenceLost s) := rfl

/-- Settles O39: each part is the equation of the operation that its command runs. In which order the slots are tried is the model's
choice (assumption 56). -/
theorem processorFaults : Obligations.ProcessorFaults := by
  unfold Obligations.ProcessorFaults
  refine ⟨fun s p hOn hup hrun => ?fault,
    fun s p v hOn hp hd hf =>
      ⟨fun hn => ⟨?firstOk, ?firstFails⟩, fun hn => ⟨?secondOk, ?secondFails⟩, fun hn ok => ?bothFailed⟩,
    fun s hv hr hb hf => ?lp, fun s hr => ⟨fun hne => ?presence, fun hs => ?service⟩⟩
  case fault =>
    obtain ⟨c, hc, hs⟩ := procDown_of_runs hup hrun
    refine ⟨_, (exec_procFault hOn p).trans (congrArg _ hs), rfl, dropLocks_owner_ne s (by omega), fun k l => mfind?_dropLocks_held,
      flagv_alarmEvent_self _ _ _ _, ?_, fun l hl => ?_, fun x hx hother => ?_⟩
    · rw [alarmEvent_arr, foldl_monDrop, hc]
    · rw [alarmEvent_arr]
      exact mfind?_foldl_monDrop c _ (List.mem_range.mpr hl)
    · rw [alarmEvent_arr]
      exact mem_foldl_monDrop (hc ▸ hx) fun l hl => hother l (List.mem_range.mp hl)
  case firstOk =>
    rw [exec_procRestart hOn, procUp_ok hd (by omega), hn]
    exact congrArg Host.Outcome.next (procRuns_sameSlot hp hf v)
  case firstFails => rw [exec_procRestart hOn, procUp_firstFails hd hn]
  case secondOk =>
    have hruns : procUp s p true v = procRuns s p true v := by rw [procUp_ok hd (by omega), hn]; rfl
    refine ⟨_, (exec_procRestart hOn p true v).trans (congrArg _ (hruns.trans (procRuns_otherSlot hp hf v))), ?_⟩
    exact ⟨rfl, rfl, getLsbD_setBit3_self _ _ _, flagv_alarm_self _ _, alarm_arr _ _⟩
  case secondFails =>
    refine ⟨_, (exec_procRestart hOn p false v).trans (congrArg _ (procUp_secondFails hd hn v)), ?_⟩
    exact ⟨rfl, flagv_alarm_self _ _, alarm_arr _ _⟩
  case bothFailed => rw [exec_procRestart hOn, procUp_bothFailed hn]
  case lp => exact ⟨_, (exec_lpFault hv).trans (congrArg _ (lpRestart_of_runs hv hr hb hf)), rfl, dropLocks_owner_ne s (by decide)⟩
  case presence => rw [exec_serviceNDeassert, presenceLost_of_noRun hr, if_neg hne]
  case service =>
    refine ⟨_, (exec_serviceNDeassert s).trans (congrArg _ (presenceLost_of_noRun hr)), ?_⟩
    rw [if_pos hs]
    exact ⟨rfl, by rw [setState_st, hs], setState_arr _ _⟩

end Sys2Proof.Machine
end

section
/-! SUPPORT. Remote snoops at the proxy (R163, R166): what a message that leaves on the span path and a snoop that goes to a local agent change,
and the two ways in which a gateway takes a remote snoop whose proxy set is filtered. -/

namespace Sys2Proof.Machine

variable {c d e : Core}

/-! ### The parts that a gateway and a C-port change -/

theorem gwGet_gwMod (c : Core) (j k : Nat) (f : Gateway → Gateway) :
    gwGet (gwMod c j f) k = if k = j then f (gwGet c k) else gwGet c k := by
  split
  · subst k
    exact mget_mmod_self _ _ _ _
  · exact mget_mmod_ne _ _ _ ‹_›

@[simp] theorem gwGet_gwMod_self (c : Core) (k : Nat) (f : Gateway → Gateway) : gwGet (gwMod c k f) k = f (gwGet c k) :=
  (gwGet_gwMod c k k f).trans (if_pos rfl)

@[simp] theorem gwGet_cpMod (c : Core) (p k : Nat) (f : CPort → CPort) : gwGet (cpMod c p f) k = gwGet c k := rfl

@[simp] theorem cpGet_cpMod_self (c : Core) (p : Nat) (f : CPort → CPort) : cpGet (cpMod c p f) p = f (cpGet c p) :=
  mget_mmod_self _ _ _ _

/-- Two changes of one C-port are one. -/
theorem cpMod_cpMod (c : Core) (p : Nat) (f g : CPort → CPort) : cpMod (cpMod c p f) p g = cpMod c p (fun y => g (f y)) := by
  simp only [cpMod, mmod, mput_mput, mget_mput_self]

/-! ### What leaves the block -/

/-- What leaves the block has changed no more of the data side than its terminals, the S-ports, counters and statistics. -/
abbrev OutFrame (c d : Core) : Prop := d = { c with wire := d.wire, sport := d.sport, hist := d.hist, ctr := d.ctr }

theorem OutFrame.trans (h : OutFrame c d) (h' : OutFrame d e) : OutFrame c e := by
  rw [OutFrame, h', h]

theorem OutFrame.arr (h : OutFrame c d) : d.arr = c.arr := by rw [h]

theorem OutFrame.fab (h : OutFrame c d) : d.fab = c.fab := by rw [h]

theorem OutFrame.noFlip (h : OutFrame c d) (hf : NoFlip c) : NoFlip d := by rw [h]; exact hf

theorem OutFrame.gwGet (h : OutFrame c d) (k : Nat) : gwGet d k = gwGet c k := by rw [h]; rfl

theorem OutFrame.cpGet (h : OutFrame c d) (p : Nat) : cpGet d p = cpGet c p := by rw [h]; rfl

theorem countInj_frame (c : Core) (ep : Nat) : OutFrame c (countInj c ep) := by
  unfold countInj
  split <;> rfl

theorem egressFlip_of_noFlip (h : NoFlip c) (ep : Nat) (f : OutFlit) : egressFlip c ep f = (f, c) := by
  rw [egressFlip, flipArmed_false 12 h]
  rfl

theorem spanFlips_of_noFlip (h : NoFlip c) (n : Nat) (l : List OutFlit) : spanFlips c n l = (l.map encFlit, c) := by
  induction l with
  | nil => rfl
  | cons f t ih => simp only [spanFlips, egressFlip_of_noFlip h, ih, List.map_cons]

/-- A flit that goes to an open C-port changes that port's outbound FIFO and credits, and what its terminals show. -/
theorem cpOut_of_open {p : Nat} (h : NoFlip c) (hu : portsUp c = true) (hp : (cpGet c p).closed = false) (f : OutFlit) :
    ∃ q cr, OutFrame (cpMod c p (fun y => { y with outq := q, credits := cr })) (cpOut c p f) := by
  have hopen : ((cpGet c p).closed || !portsUp c) = false := by rw [hp, hu]; rfl
  simp only [cpOut, hopen, egressFlip_of_noFlip h, Bool.false_eq_true, if_false]
  exact ⟨_, _, rfl⟩

/-! ### A message that leaves on the span path (R302, R306) -/

theorem linkPump_frame (fuel : Nat) (c : Core) (n : Nat) : OutFrame c (linkPump fuel c n) := by
  induction fuel generalizing c with
  | zero => rfl
  | succ fuel ih =>
    simp only [linkPump]
    split
    · split
      · exact OutFrame.trans rfl (ih _)
      · rfl
    · rfl

theorem spanPush_frame (h : NoFlip c) (m : SpanMsg) : OutFrame c (spanPush c m) := by
  simp only [spanPush, spanFlips_of_noFlip h]
  split
  · exact OutFrame.trans rfl (linkPump_frame _ _ _)
  · rfl

/-- The message that gateway k sends to a remote block: it takes the next ESEQ of its class. -/
def spanMsg (c : Core) (k dst : Nat) (msg : Msg) (flits : List OutFlit) : SpanMsg :=
  { src := c.dom.inst, dst := dst, gw := k, eseq := mget (gwGet c k).txSeq (16 * dst + msgCls msg) 0, msg := msg, flits := flits, t0 := now c }

/-- A gateway with one more message in its end-to-end buffer, whose class counts on. -/
def Gateway.sends (g : Gateway) (m : SpanMsg) : Gateway :=
  { g with txSeq := mput g.txSeq (16 * m.dst + msgCls m.msg) ((m.eseq + 1) % 65536), tx := g.tx ++ [m] }

/-- A message that is sent stands in its gateway's end-to-end buffer, whether it leaves at once or waits for its place. -/
theorem spanSend_frame (h : NoFlip c) (k dst : Nat) (msg : Msg) (flits : List OutFlit) :
    OutFrame (gwMod c k (fun g => g.sends (spanMsg c k dst msg flits))) (spanSend c k dst msg flits) := by
  have hcount := countInj_frame (gwMod c k (fun g => g.sends (spanMsg c k dst msg flits))) (epG k)
  unfold spanSend
  extract_lets
  split
  · exact hcount.trans (spanPush_frame (hcount.noFlip h) _)
  · exact hcount

/-! ### Proxy entries while other parts of a gateway change -/

theorem pfFind_congr {line : Nat} (h : (gwGet d (pfBank line)).pf = (gwGet c (pfBank line)).pf) : pfFind d line = pfFind c line := by
  simp only [pfFind, pfRd, h]

theorem rxDrop_pf (c : Core) (j k : Nat) (m : SpanMsg) : (gwGet (rxDrop c j m) k).pf = (gwGet c k).pf := by
  rw [rxDrop, gwGet_gwMod]
  split <;> rfl

/-- A gateway that has written an NRU word of its proxy bank. -/
def Gateway.touched (g : Gateway) (si : Nat) (n : BitVec 16) : Gateway := { g with pfNru := mput g.pfNru si n }

/-- An NRU bit of a good word is set in that word, and nothing else changes (R150). -/
theorem pfTouch_of_noFlip {line : Nat} (h : NoFlip c) (hn : (gwGet c (pfBank line)).nruBad = []) (w : Nat) :
    ∃ n, pfTouch c line w = gwMod c (pfBank line) (fun g => g.touched (pfSet line) n) := by
  have hfix : pfNruFix c (pfBank line) (pfSet line) = c := by
    rw [pfNruFix, hn]
    rfl
  simp only [pfTouch, hfix, pfNruPut, flipArmed_false 4 h]
  exact ⟨_, rfl⟩

/-! ### A snoop goes to one local agent (R166) -/

/-- A snoop does not end while an agent's answer is due. -/
theorem gwSnoopTry_of_waits {k : Nat} {s : GwSnoop} (hs : (gwGet c k).snoops = [s]) (hw : s.waits ≠ []) :
    gwSnoopTry c k s.line s.tag = c := by
  simp only [gwSnoopTry, hs, List.find?_cons, beq_self_eq_true, Bool.and_self]
  exact if_pos (by rw [bne_iff_ne.mpr hw, Bool.true_or])

/-- A snoop as a gateway keeps it while it awaits one agent's answer. -/
def GwSnoop.awaiting (s : GwSnoop) (a : Nat) : GwSnoop := { s with waits := [a], gone := [], waitWb := [] }

/-- A gateway that awaits one agent's answer to one more snoop. -/
def Gateway.awaits (g : Gateway) (s : GwSnoop) (a : Nat) : Gateway := { g with snoops := g.snoops ++ [s.awaiting a] }

/-- What a port records of a snoop that gateway k passes to an agent. -/
def GwSnoop.atPort (s : GwSnoop) (k a : Nat) : PortSnoop := { agent := a, line := s.line, phys := gwPhys k, trk := s.tag }

/-- A port with one more snoop on record, its outbound FIFO and credits as they are once the snoop's flit is in. -/
def CPort.snooped (y : CPort) (x : PortSnoop) (q : List OutFlit) (cr : List Nat) : CPort :=
  { y with outq := q, credits := cr, snoops := y.snoops ++ [x] }

/-- A port records a snoop and sends its flit to the agent. -/
theorem cpOut_snoop_of_open {p : Nat} (h : NoFlip c) (hu : portsUp c = true) (hp : (cpGet c p).closed = false) (x : PortSnoop)
    (f : OutFlit) :
    ∃ q cr, OutFrame (cpMod c p (fun y => y.snooped x q cr)) (cpOut (cpMod c p (fun y => { y with snoops := y.snoops ++ [x] })) p f) := by
  obtain ⟨q, cr, hout⟩ := cpOut_of_open (c := cpMod c p (fun y => { y with snoops := y.snoops ++ [x] })) (p := p) h hu
    (by rw [cpGet_cpMod_self]; exact hp) f
  rw [cpMod_cpMod] at hout
  exact ⟨q, cr, hout⟩

/-- A gateway's only snoop, passed to one agent behind an open port: the gateway awaits that agent's answer. -/
theorem gwSnoopSend_one {k a : Nat} (s : GwSnoop) (h : NoFlip c) (hu : portsUp c = true) (hp : (cpGet c (portOfAgent a)).closed = false)
    (hs : (gwGet c k).snoops = []) :
    ∃ q cr, OutFrame (cpMod (gwMod c k (fun g => g.awaits s a)) (portOfAgent a) (fun y => y.snooped (s.atPort k a) q cr))
      (gwSnoopSend c k s [a]) := by
  have hlive : [a].filter (fun a => !(cpGet c (portOfAgent a)).closed) = [a] := List.filter_cons_of_pos (by rw [hp]; rfl)
  have hdead : [a].filter (fun b => !List.contains [a] b) = [] := List.filter_cons_of_neg (by simp)
  obtain ⟨q, cr, hout⟩ := cpOut_snoop_of_open (c := gwMod c k (fun g => g.awaits s a)) h hu hp (s.atPort k a)
    { msg := s.msg, tag := s.tag, rid := a, line := s.line, be := if s.own then 0 else fwdField s.frid s.ftag }
  have hwait := congrArg Gateway.snoops (hout.gwGet k)
  simp only [gwGet_cpMod, gwGet_gwMod_self, Gateway.awaits, hs, List.nil_append] at hwait
  refine ⟨q, cr, ?_⟩
  simp only [gwSnoopSend, hlive, hdead, List.filter_nil, List.foldl_cons, List.foldl_nil]
  exact (gwSnoopTry_of_waits (s := s.awaiting a) hwait (List.cons_ne_nil a [])).symm ▸ hout

/-! ### A gateway takes a remote snoop (R166) -/

/-- The oldest snoop that gateway k has received from a remote home and may handle is m. The proxy set of its line passes its checks and is
filtered, and the gateway has nothing else under way. -/
structure SnoopReady (c : Core) (k : Nat) (m : SpanMsg) : Prop where
  found : rxFind c k (fun m => m.flits.any (fun f => msgCls f.msg == 1)) = some m
  good : pfCheck c (rxFlit m).line = c
  bank : pfBank (rxFlit m).line = k
  noSnoops : (gwGet c k).snoops = []
  noLineq : (gwGet c k).lineq = []
  nruGood : (gwGet c k).nruBad = []
  filtered : (gwGet c k).unfiltered.contains (pfSet (rxFlit m).line) = false

/-- A remote snoop as its gateway keeps it. -/
def SpanMsg.gwSnoop (m : SpanMsg) : GwSnoop :=
  { line := (rxFlit m).line, home := m.src, tag := (rxFlit m).tag, msg := (rxFlit m).msg, frid := (rxFlit m).be.toNat % 128
    ftag := (rxFlit m).be.toNat / 128 % 4096, waits := [] }

/-- The answer to a remote snoop of a line that nothing here holds: SNP_RESP with GST = I. -/
def SpanMsg.snpNone (m : SpanMsg) (c : Core) : OutFlit :=
  { msg := .snpResp, tag := (rxFlit m).tag, rid := ownRid c, line := (rxFlit m).line }

variable {k : Nat} {m : SpanMsg}

/-- A ready snoop leaves the received messages, and its line's proxy entry decides what happens. -/
theorem remoteSnoop_of_ready (h : SnoopReady c k m) :
    remoteSnoop c k = (pfFind c (rxFlit m).line).elim
      (spanSend (ctrAdd (rxDrop c k m) (0x98204 + 0x1000 * k) 48 1) k m.src .snpResp [m.snpNone c])
      (fun w => gwSnoopSend (pfTouch (rxDrop c k m) (rxFlit m).line w) k m.gwSnoop
        (pAgents (pfRd c k (pfSet (rxFlit m).line) w).bits)) := by
  obtain ⟨hfound, hgood, -, hs, hl, -, hfilt⟩ := h
  have hunf : (gwGet (rxDrop c k m) k).unfiltered.contains (pfSet (rxFlit m).line) = false := by
    rw [rxDrop, gwGet_gwMod_self]
    exact hfilt
  have hfind : pfFind (rxDrop c k m) (rxFlit m).line = pfFind c (rxFlit m).line := pfFind_congr (rxDrop_pf c k _ m)
  have hrd (w : Nat) : pfRd (rxDrop c k m) k (pfSet (rxFlit m).line) w = pfRd c k (pfSet (rxFlit m).line) w := by
    simp only [pfRd, rxDrop_pf]
  simp only [remoteSnoop, hfound, hgood, hs, hl, List.any_nil, Bool.or_self, Bool.false_eq_true, if_false, hunf, hfind, hrd]
  cases pfFind c (rxFlit m).line <;> rfl

/-- A line that the proxy does not list: the answer with GST = I is sent at once. -/
theorem remoteSnoop_unlisted (h : SnoopReady c k m) (hf : NoFlip c) (hw : pfFind c (rxFlit m).line = none) :
    OutFrame (gwMod (rxDrop c k m) k (fun g => g.sends (spanMsg (rxDrop c k m) k m.src .snpResp [m.snpNone c]))) (remoteSnoop c k) := by
  rw [remoteSnoop_of_ready h, hw]
  exact OutFrame.trans rfl (spanSend_frame (c := ctrAdd (rxDrop c k m) (0x98204 + 0x1000 * k) 48 1) hf k m.src .snpResp [m.snpNone c])

/-- A line that the proxy lists for one agent behind an open port: the snoop goes to that agent, and the way's NRU bit is set. -/
theorem remoteSnoop_listed {w a : Nat} (h : SnoopReady c k m) (hf : NoFlip c) (hu : portsUp c = true)
    (hw : pfFind c (rxFlit m).line = some w) (ha : pAgents (pfRd c k (pfSet (rxFlit m).line) w).bits = [a])
    (hp : (cpGet c (portOfAgent a)).closed = false) :
    ∃ n q cr, OutFrame
      (cpMod (gwMod (gwMod (rxDrop c k m) k (fun g => g.touched (pfSet (rxFlit m).line) n)) k (fun g => g.awaits m.gwSnoop a))
        (portOfAgent a) (fun y => y.snooped (m.gwSnoop.atPort k a) q cr)) (remoteSnoop c k) := by
  have hn : (gwGet (rxDrop c k m) (pfBank (rxFlit m).line)).nruBad = [] := by
    rw [h.bank, rxDrop, gwGet_gwMod_self]
    exact h.nruGood
  obtain ⟨n, htouch⟩ := pfTouch_of_noFlip (c := rxDrop c k m) hf hn w
  have hs : (gwGet (gwMod (rxDrop c k m) k (fun g => g.touched (pfSet (rxFlit m).line) n)) k).snoops = [] := by
    rw [gwGet_gwMod_self, rxDrop, gwGet_gwMod_self]
    exact h.noSnoops
  rw [remoteSnoop_of_ready h, hw, Option.elim_some, ha, htouch, h.bank]
  exact ⟨n, gwSnoopSend_one (c := gwMod (rxDrop c k m) k (fun g => g.touched (pfSet (rxFlit m).line) n)) (a := a) m.gwSnoop hf hu hp hs⟩

theorem exec_remoteSnoop {s : State} (hOn : On s) (hu : portsUp s.core = true) (k : Fin 4) :
    exec (.remoteSnoop k) s = .next { s with core := remoteSnoop s.core k } :=
  (onCore_on (f := fun c => if portsUp c then remoteSnoop c k.val else c) hOn).trans (by rw [if_pos hu])

/-- Settles O25: where the line has no proxy entry the gateway itself answers, and an entry that lists one agent sends the snoop there. -/
theorem remoteSnoops : Obligations.RemoteSnoops := by
  unfold Obligations.RemoteSnoops
  rintro s c k m rfl hOn hu hf hfound hgood hbank hs hl hn hfilt
  have h : SnoopReady s.core k m := ⟨hfound, hgood, hbank, hs, hl, hn, hfilt⟩
  have hrx : gwGet (rxDrop s.core k m) k = { gwGet s.core k with rx := (gwGet s.core k).rx.erase m } := gwGet_gwMod_self _ _ _
  refine ⟨fun hw => ?unlisted, fun w a hw ha _ hp => ?listed⟩
  case unlisted =>
    have hframe := remoteSnoop_unlisted h hf hw
    have hg := hframe.gwGet k
    rw [gwGet_gwMod_self, hrx] at hg
    have harr : (remoteSnoop s.core k).arr = s.core.arr := by simp only [hframe.arr, gwMod_arr, rxDrop]
    have hfab : (remoteSnoop s.core k).fab = s.core.fab := by simp only [hframe.fab, gwMod_fab, rxDrop]
    exact ⟨_, exec_remoteSnoop hOn hu k, rfl, harr, hfab, congrArg Gateway.rx hg, _, congrArg Gateway.tx hg⟩
  case listed =>
    obtain ⟨n, q, cr, hframe⟩ := remoteSnoop_listed h hf hu hw ha hp
    have hg := hframe.gwGet k
    rw [gwGet_cpMod, gwGet_gwMod_self, gwGet_gwMod_self, hrx] at hg
    have hsnoops : (gwGet (remoteSnoop s.core k) k).snoops = [m.gwSnoop.awaiting a] := by
      rw [hg, Gateway.awaits, Gateway.touched, hs]
      rfl
    have hport := (hframe.cpGet (portOfAgent a)).trans (cpGet_cpMod_self _ _ _)
    have harr : (remoteSnoop s.core k).arr = s.core.arr := by simp only [hframe.arr, cpMod_arr, gwMod_arr, rxDrop]
    have hfab : (remoteSnoop s.core k).fab = s.core.fab := by simp only [hframe.fab, cpMod_fab, gwMod_fab, rxDrop]
    exact ⟨_, exec_remoteSnoop hOn hu k, rfl, harr, hfab, congrArg Gateway.rx hg,
      congrArg (List.map fun x => (x.line, x.home, x.waits)) hsnoops, congrArg CPort.snoops hport⟩

end Sys2Proof.Machine
end
